-- ==== Sys2Proof/Word.lean ====
section
/-! DEFINITION. The two bit-level units of the exchange memory (spec 00, "Exchange memory layout"). -/

namespace Sys2Proof

/-- What the host and the part exchange in one access: 16 bits. -/
abbrev Word := BitVec 16

/-- The unit that byte offsets count. -/
abbrev Byte := BitVec 8

end Sys2Proof
end

