-- ==== Sys2Proof/Syntax.lean ====
section
/-! DEFINITION. The commands of the KD2: one constructor of `Instr` per row of the table of operations
and events, with the names its operands range over. -/

namespace Sys2Proof

/-- The two motors, their inverters and their links (spec 00, "Names"). -/
inductive Motor | a | b
deriving DecidableEq, Repr

/-- The vibration channels V0 to V7 (spec 08, "Channels and groups"). -/
inductive Accel | v0 | v1 | v2 | v3 | v4 | v5 | v6 | v7
deriving DecidableEq, Repr

/-- The four vibration groups (spec 08, "Channels and groups"). -/
inductive VibGroup | pinionA | pinionB | gear | tyre
deriving DecidableEq, Repr

/-- The two capture engines (spec 10). -/
inductive EngineId | e0 | e1
deriving DecidableEq, Repr

/-- The four trip-record slots (spec 09). -/
inductive SlotId | s0 | s1 | s2 | s3
deriving DecidableEq, Repr

/-- An order cell, 0 to 15 (spec 01). -/
abbrev CellId := Fin 16

/-- The work that different blocks do at one supervision frame (spec 03 R47, R59): the order between
them is left open by the spec and is an operand of `Instr.supervisionFrame`. -/
inductive FrameBlock | acquisition | vibration | sequencer | allotment | trip | orders | live
deriving DecidableEq, Repr

/-- The receivers of a scan's results (spec 03 R48): "these hand-overs go to different blocks and are
not ordered among themselves"; the order is an operand of `Instr.scanComplete`. -/
inductive ScanBlock | controlA | controlB | vibration | capture | fastRing
deriving DecidableEq, Repr

/-- What a host read addresses: a word of exchange memory (MSEL) or one of the four registers (RSEL). -/
inductive ReadTarget
  | memory (word : BitVec 16)
  | status
  | attention
  | routing
  | control
deriving DecidableEq, Repr

/-- The kinds of order (spec 01, "Kinds"); `unknown` stands for kind 0 and every kind above 14 (R15). -/
inductive OrderKind
  | unknown | applySettings | applyRatings | run | stop | halt | setSpeed | clearTrip | motorOut
  | motorIn | capture | captureCancel | vibSelftest | linkTest | linkReset
deriving DecidableEq, Repr

/-- The commands the part takes: host accesses, events on its pins and links, expiries of its timer,
and the events its own counters bring about. An order row names the cell the order stands in. -/
inductive Instr
  /-- POWER_ON_RESET (R3): the RESET line is asserted. -/
  | powerOnReset
  /-- RESET_END (R3): RESET is released and every block has finished its reset work. -/
  | resetEnd
  /-- PART_RESET_REQUEST (R10): the host writes `value` to CONTROL. -/
  | partResetRequest (value : Word)
  /-- ATTENTION_ACKNOWLEDGE (R8): the host writes `value` to ATTENTION. -/
  | attentionAcknowledge (value : Word)
  /-- ROUTING_WRITE (R9): the host writes `value` to ROUTING. -/
  | routingWrite (value : Word)
  /-- REGISTER_WRITE_IGNORED (R7): the host writes `value` to STATUS. -/
  | registerWriteIgnored (value : Word)
  /-- HOST_WRITE (R1): the host writes `value` to word `word` of exchange memory (byte offset 2 × `word`). -/
  | hostWrite (word : BitVec 16) (value : Word)
  /-- HOST_READ (R1): the host reads `target`. -/
  | hostRead (target : ReadTarget)
  /-- CONTROL_PERIOD_EXPIRY (R47): the control-period timer expires. -/
  | controlPeriodExpiry
  /-- SUPERVISION_FRAME (R47): the frame event, the blocks taking their work in `order`. -/
  | supervisionFrame (order : List FrameBlock)
  /-- CONVERSION_SLOT_END (R50): the slot under way ends; `input` is the input in units of the channel
  (beyond ±32767 it is beyond full scale), or none when the conversion had not finished. -/
  | conversionSlotEnd (input : Option Int)
  /-- SCAN_COMPLETE (R48): the fourteen results are handed on, in `order`. -/
  | scanComplete (order : List ScanBlock)
  /-- CURRENT_SENSOR_LOST (R67). -/
  | currentSensorLost (m : Motor)
  /-- WINDOW_END (R139). -/
  | windowEnd (c : Accel)
  /-- CAPTURE_BLOCK_WRITE (R179). -/
  | captureBlockWrite (e : EngineId)
  /-- CAPTURE_COMPLETE (R183). -/
  | captureComplete (e : EngineId)
  /-- SELFTEST_SETTLING_END (R149). -/
  | selftestSettlingEnd
  /-- SELFTEST_MEASURING_END (R149). -/
  | selftestMeasuringEnd
  /-- SELFTEST_END (R150). -/
  | selftestEnd
  /-- ENCODER_TRANSITION (R51): the encoder pair of `m` becomes (`p`, `q`). -/
  | encoderTransition (m : Motor) (p q : Bool)
  /-- ENCODER_VALID_REGAINED (R52). -/
  | encoderValidRegained (m : Motor)
  /-- LINE_BREAK_ASSERTED (R52). -/
  | lineBreakAsserted (m : Motor)
  /-- LINE_BREAK_RELEASED (R51). -/
  | lineBreakReleased (m : Motor)
  /-- ENCODER_LOST (R55). -/
  | encoderLost (m : Motor)
  /-- OVERSPEED (R57). -/
  | overspeed
  /-- SPEED_MISMATCH (R58). -/
  | speedMismatch
  /-- UNKNOWN_KIND (R15). -/
  | unknownKind (cell : CellId)
  /-- APPLY_SETTINGS (R16, R31). -/
  | applySettings (cell : CellId)
  /-- APPLY_RATINGS (R17, R44). -/
  | applyRatings (cell : CellId)
  /-- RUN (R18). -/
  | run (cell : CellId)
  /-- STOP (R19). -/
  | stop (cell : CellId)
  /-- HALT (R20). -/
  | halt (cell : CellId)
  /-- SET_SPEED (R21). -/
  | setSpeed (cell : CellId)
  /-- CLEAR_TRIP (R22, R163). -/
  | clearTrip (cell : CellId)
  /-- MOTOR_OUT (R23, R114). -/
  | motorOut (cell : CellId)
  /-- MOTOR_IN (R23, R114). -/
  | motorIn (cell : CellId)
  /-- CAPTURE (R24, R177). -/
  | capture (cell : CellId)
  /-- CAPTURE_CANCEL (R25, R184). -/
  | captureCancel (cell : CellId)
  /-- VIB_SELFTEST (R26, R148). -/
  | vibSelftest (cell : CellId)
  /-- LINK_TEST (R27, R92). -/
  | linkTest (cell : CellId)
  /-- LINK_RESET (R28, R93). -/
  | linkReset (cell : CellId)
  /-- REPLY_RECEIVED (R85): a reply frame of these words arrives on link `m`. -/
  | replyReceived (m : Motor) (words : List Word)
  /-- REPLY_WINDOW_CLOSE (R85). -/
  | replyWindowClose (m : Motor)
  /-- LINK_UP (R87). -/
  | linkUp (m : Motor)
  /-- LINK_LOST (R88). -/
  | linkLost (m : Motor)
  /-- TRIP_IN_ASSERTED (R161). -/
  | tripInAsserted
  /-- TRIP_IN_RELEASED (R161). -/
  | tripInReleased
  /-- RECORD_CLOSE (R170). -/
  | recordClose
  /-- TRIP_RAMP_END (R111). -/
  | tripRampEnd (m : Motor)
  /-- MAGNETIZING_RAMP_FINISHED (R100). -/
  | magnetizingRampFinished
  /-- FAILED_START (R101). -/
  | failedStart
  /-- GEAR_OVERLOAD (R132). -/
  | gearOverload
  /-- DERATE_HOLD_EXPIRY (R146). -/
  | derateHoldExpiry (g : VibGroup)
deriving DecidableEq, Repr

end Sys2Proof
end

