-- ==== Sys2Proof/Decode.lean ====
section
/-! DEFINITION. Reading a command from the bits of the table: no row of the table gives bits. -/

namespace Sys2Proof

/-- No row of the table of operations and events has fixed bits or fields (98_reader.md counts 0 rows
with fixed bits and 0 with fields), so no word spells a command. -/
def decodeTableWord (_nbits _w : Nat) : Option Instr := none

end Sys2Proof
end

