-- ==== Sys2Proof/Config.lean ====
section
/-! DEFINITION. The fixed layout of the part: the memory map (spec 01, "The map and the guard"), the
identity block (R4) and the capacities. The spec leaves no result of a command open, so there is no
free value here. -/

namespace Sys2Proof.Config

/-- Size of the exchange memory in bytes. -/
abbrev memoryBytes : Nat := 0x20000
/-- Order cells: base of cell 0 and size of a cell (spec 01, the map). -/
abbrev cellBase : Nat := 0x100
abbrev cellBytes : Nat := 0x40
/-- The live block runs from here to the start of page A. -/
abbrev liveBase : Nat := 0x500
abbrev pageA : Nat := 0x1000
abbrev pageB : Nat := 0x2000
abbrev ratingsBase : Nat := 0x3000
abbrev captureBase : Nat := 0x4000
/-- The first byte after the capture area. -/
abbrev captureEnd : Nat := 0x10000
/-- Trip-record slots: base of slot 0 and size of a slot (spec 01, the map). -/
abbrev slotBase : Nat := 0x10000
abbrev slotBytes : Nat := 0x4000

/-- Words of a settings page that are read (R29) and of the ratings record (R44). -/
abbrev pageWords : Nat := 147
abbrev ratingsWords : Nat := 9

/-- Entries of the history ring (R165) and of the fast ring (R166). -/
abbrev historyCapacity : Nat := 512
abbrev fastCapacity : Nat := 32

/-- The identity block of R4 as (byte offset, word); all other words of the block are 0. -/
def identity : List (Nat × Word) :=
  [(0x000, 0x4B32#16), (0x002, 1#16), (0x004, 1#16), (0x006, 16#16), (0x008, 4#16),
   (0x00A, 0x4000#16), (0x00C, 0#16), (0x00E, 0xC000#16), (0x010, 0#16), (0x012, 512#16),
   (0x014, 480#16)]

/-- The value that a write to CONTROL must carry to request a part reset (R10). -/
abbrev partResetValue : Word := 0x5A01#16

end Sys2Proof.Config
end

