-- ==== Sys2Proof/Machine/Units.lean ====
section
/-! DEFINITION. Values kept once per motor, per channel, per group, per engine, and the codes of the
states that are shown as numbers (spec 01, "State fields ... use these codes"). -/

namespace Sys2Proof

def Motor.other : Motor → Motor
  | .a => .b
  | .b => .a

def Motor.all : List Motor := [.a, .b]

def Accel.all : List Accel := [.v0, .v1, .v2, .v3, .v4, .v5, .v6, .v7]

/-- The channel's number k in "Vk" (spec 08). -/
def Accel.number : Accel → Nat
  | .v0 => 0 | .v1 => 1 | .v2 => 2 | .v3 => 3 | .v4 => 4 | .v5 => 5 | .v6 => 6 | .v7 => 7

/-- The group a channel belongs to (spec 08, "Channels and groups"). -/
def Accel.group : Accel → VibGroup
  | .v0 | .v1 => .pinionA
  | .v2 | .v3 => .pinionB
  | .v4 => .gear
  | .v5 | .v6 | .v7 => .tyre

def VibGroup.all : List VibGroup := [.pinionA, .pinionB, .gear, .tyre]

/-- The group's place in the settings page and in the code tables (spec 02). -/
def VibGroup.number : VibGroup → Nat
  | .pinionA => 0 | .pinionB => 1 | .gear => 2 | .tyre => 3

def VibGroup.members : VibGroup → List Accel
  | .pinionA => [.v0, .v1]
  | .pinionB => [.v2, .v3]
  | .gear => [.v4]
  | .tyre => [.v5, .v6, .v7]

/-- The groups that serve a motor (R122). -/
def Motor.groups : Motor → List VibGroup
  | .a => [.pinionA, .gear, .tyre]
  | .b => [.pinionB, .gear, .tyre]

def EngineId.other : EngineId → EngineId
  | .e0 => .e1
  | .e1 => .e0

def EngineId.all : List EngineId := [.e0, .e1]

def SlotId.all : List SlotId := [.s0, .s1, .s2, .s3]

def SlotId.number : SlotId → Nat
  | .s0 => 0 | .s1 => 1 | .s2 => 2 | .s3 => 3

/-- One value for motor A and one for motor B. -/
structure PerMotor (α : Type) where
  a : α
  b : α
deriving DecidableEq, Repr

def PerMotor.get {α : Type} (p : PerMotor α) : Motor → α
  | .a => p.a
  | .b => p.b

def PerMotor.set {α : Type} (p : PerMotor α) (m : Motor) (v : α) : PerMotor α :=
  match m with
  | .a => { p with a := v }
  | .b => { p with b := v }

def PerMotor.modify {α : Type} (p : PerMotor α) (m : Motor) (f : α → α) : PerMotor α :=
  p.set m (f (p.get m))

def PerMotor.map {α β : Type} (p : PerMotor α) (f : α → β) : PerMotor β :=
  { a := f p.a, b := f p.b }

def PerMotor.both {α : Type} (v : α) : PerMotor α := { a := v, b := v }

/-- One value for each capture engine. -/
structure PerEngine (α : Type) where
  e0 : α
  e1 : α
deriving DecidableEq, Repr

def PerEngine.get {α : Type} (p : PerEngine α) : EngineId → α
  | .e0 => p.e0
  | .e1 => p.e1

def PerEngine.set {α : Type} (p : PerEngine α) (e : EngineId) (v : α) : PerEngine α :=
  match e with
  | .e0 => { p with e0 := v }
  | .e1 => { p with e1 := v }

def PerEngine.map {α β : Type} (p : PerEngine α) (f : α → β) : PerEngine β :=
  { e0 := f p.e0, e1 := f p.e1 }

/-- One value for each vibration group. -/
structure PerGroup (α : Type) where
  pinionA : α
  pinionB : α
  gear : α
  tyre : α
deriving DecidableEq, Repr

def PerGroup.get {α : Type} (p : PerGroup α) : VibGroup → α
  | .pinionA => p.pinionA
  | .pinionB => p.pinionB
  | .gear => p.gear
  | .tyre => p.tyre

def PerGroup.set {α : Type} (p : PerGroup α) (g : VibGroup) (v : α) : PerGroup α :=
  match g with
  | .pinionA => { p with pinionA := v }
  | .pinionB => { p with pinionB := v }
  | .gear => { p with gear := v }
  | .tyre => { p with tyre := v }

def PerGroup.map {α β : Type} (p : PerGroup α) (f : α → β) : PerGroup β :=
  { pinionA := f p.pinionA, pinionB := f p.pinionB, gear := f p.gear, tyre := f p.tyre }

def PerGroup.ofFun {α : Type} (f : VibGroup → α) : PerGroup α :=
  { pinionA := f .pinionA, pinionB := f .pinionB, gear := f .gear, tyre := f .tyre }

def PerGroup.toList {α : Type} (p : PerGroup α) : List α := [p.pinionA, p.pinionB, p.gear, p.tyre]

/-- One value for each vibration channel. -/
structure PerAccel (α : Type) where
  v0 : α
  v1 : α
  v2 : α
  v3 : α
  v4 : α
  v5 : α
  v6 : α
  v7 : α
deriving DecidableEq, Repr

def PerAccel.get {α : Type} (p : PerAccel α) : Accel → α
  | .v0 => p.v0 | .v1 => p.v1 | .v2 => p.v2 | .v3 => p.v3
  | .v4 => p.v4 | .v5 => p.v5 | .v6 => p.v6 | .v7 => p.v7

def PerAccel.set {α : Type} (p : PerAccel α) (c : Accel) (v : α) : PerAccel α :=
  match c with
  | .v0 => { p with v0 := v }
  | .v1 => { p with v1 := v }
  | .v2 => { p with v2 := v }
  | .v3 => { p with v3 := v }
  | .v4 => { p with v4 := v }
  | .v5 => { p with v5 := v }
  | .v6 => { p with v6 := v }
  | .v7 => { p with v7 := v }

def PerAccel.ofFun {α : Type} (f : Accel → α) : PerAccel α :=
  { v0 := f .v0, v1 := f .v1, v2 := f .v2, v3 := f .v3,
    v4 := f .v4, v5 := f .v5, v6 := f .v6, v7 := f .v7 }

def PerAccel.toList {α : Type} (p : PerAccel α) : List α :=
  [p.v0, p.v1, p.v2, p.v3, p.v4, p.v5, p.v6, p.v7]

/-- Motor states (R96) and their codes (spec 01). -/
inductive MotorState | stopped | magnetizing | running | stopping | tripped | out
deriving DecidableEq, Repr

def MotorState.code : MotorState → Nat
  | .stopped => 0 | .magnetizing => 1 | .running => 2 | .stopping => 3 | .tripped => 4 | .out => 5

/-- "Energized" in the table of R96 and in R64. -/
def MotorState.energized : MotorState → Bool
  | .magnetizing | .running | .stopping => true
  | .stopped | .tripped | .out => false

/-- Drive group states (R97) and their codes (spec 01). -/
inductive GroupState | idle | starting | running | stopping | tripped
deriving DecidableEq, Repr

def GroupState.code : GroupState → Nat
  | .idle => 0 | .starting => 1 | .running => 2 | .stopping => 3 | .tripped => 4

/-- Link states (spec 05) and their codes (spec 01). -/
inductive LinkState | down | syncing | up | lost
deriving DecidableEq, Repr

def LinkState.code : LinkState → Nat
  | .down => 0 | .syncing => 1 | .up => 2 | .lost => 3

/-- Limiting sources (R119) and their codes (spec 01). -/
inductive LimitSource | settings | breakaway | thermal | vibration | sequencer | trip | gear
deriving DecidableEq, Repr

def LimitSource.code : LimitSource → Nat
  | .settings => 0 | .breakaway => 1 | .thermal => 2 | .vibration => 3 | .sequencer => 4
  | .trip => 5 | .gear => 6

/-- Vibration channel states (spec 08) and their codes (spec 01). -/
inductive ChannelState | disabled | normal | alert | danger | invalid
deriving DecidableEq, Repr

def ChannelState.code : ChannelState → Nat
  | .disabled => 0 | .normal => 1 | .alert => 2 | .danger => 3 | .invalid => 4

/-- Vibration group states (spec 08) and their codes (spec 01). -/
inductive VibState | disabled | normal | alert | danger | lost
deriving DecidableEq, Repr

def VibState.code : VibState → Nat
  | .disabled => 0 | .normal => 1 | .alert => 2 | .danger => 3 | .lost => 4

/-- Capture engine states (spec 10) and their codes (spec 01). -/
inductive EngineState | idle | armed | running
deriving DecidableEq, Repr

def EngineState.code : EngineState → Nat
  | .idle => 0 | .armed => 1 | .running => 2

/-- Validity marks of a conversion (R49). -/
inductive Mark | valid | invalidRange | invalidLate
deriving DecidableEq, Repr

def Mark.code : Mark → Nat
  | .valid => 0 | .invalidRange => 1 | .invalidLate => 2

/-- Inverter status reported in a reply (spec 05, "Frames"). -/
inductive InverterStatus | ready | notReady | fault
deriving DecidableEq, Repr

def InverterStatus.code : InverterStatus → Nat
  | .ready => 0 | .notReady => 1 | .fault => 2

/-- Classes of a trip cause and their codes in trip records (spec 09). -/
inductive TripClass | inhibitOne | inhibitAll | rampAll
deriving DecidableEq, Repr

def TripClass.code : TripClass → Nat
  | .inhibitOne => 0 | .inhibitAll => 1 | .rampAll => 2

/-- The twenty-two causes (spec 09, "Causes"). -/
inductive Cause
  | overcurrent (m : Motor)
  | inverterFault (m : Motor)
  | linkLost (m : Motor)
  | currentSensorLost (m : Motor)
  | encoderLost (m : Motor)
  | thermal (m : Motor)
  | speedMismatch
  | overspeed
  | gearOverload
  | vibDanger (g : VibGroup)
  | failedStart
  | external
  | halt
deriving DecidableEq, Repr

/-- The cause number: its bit in the latched cause set (spec 09, "Causes"). -/
def Cause.number : Cause → Nat
  | .overcurrent .a => 0 | .overcurrent .b => 1
  | .inverterFault .a => 2 | .inverterFault .b => 3
  | .linkLost .a => 4 | .linkLost .b => 5
  | .currentSensorLost .a => 6 | .currentSensorLost .b => 7
  | .encoderLost .a => 8 | .encoderLost .b => 9
  | .thermal .a => 10 | .thermal .b => 11
  | .speedMismatch => 12
  | .overspeed => 13
  | .gearOverload => 14
  | .vibDanger .pinionA => 15 | .vibDanger .pinionB => 16
  | .vibDanger .gear => 17 | .vibDanger .tyre => 18
  | .failedStart => 19
  | .external => 20
  | .halt => 21

/-- Every cause, in the order of its number. -/
def Cause.all : List Cause :=
  [.overcurrent .a, .overcurrent .b, .inverterFault .a, .inverterFault .b, .linkLost .a, .linkLost .b,
   .currentSensorLost .a, .currentSensorLost .b, .encoderLost .a, .encoderLost .b, .thermal .a,
   .thermal .b, .speedMismatch, .overspeed, .gearOverload, .vibDanger .pinionA, .vibDanger .pinionB,
   .vibDanger .gear, .vibDanger .tyre, .failedStart, .external, .halt]

/-- The motor a cause belongs to, or none for a group cause (R157). -/
def Cause.owner : Cause → Option Motor
  | .overcurrent m | .inverterFault m | .linkLost m | .currentSensorLost m | .encoderLost m
  | .thermal m => some m
  | .speedMismatch | .overspeed | .gearOverload | .vibDanger _ | .failedStart | .external
  | .halt => none

/-- The cause by which a vibration group in DANGER trips (R147). -/
def VibGroup.cause (g : VibGroup) : Cause := .vibDanger g

end Sys2Proof
end

