-- ==== Sys2Proof/Machine/Operands.lean ====
section
/-! DEFINITION. The arithmetic every chapter uses (spec 00, "Arithmetic"), reading and writing numbers as
words, the sine table (R71), the check word (R84) and the code tables of the settings (spec 02). -/

namespace Sys2Proof

/-- "Rounded shift by n" (spec 00): floor((x + 2^(n-1)) / 2^n), exact halves toward +∞. -/
def roundedShift (n : Nat) (x : Int) : Int := (x + 2 ^ (n - 1)) / 2 ^ n

/-- A value held within `lo` and `hi`. -/
def clampTo (lo hi x : Int) : Int := max lo (min hi x)

/-- "Saturate" (spec 00): clamp to −32767 .. +32767. -/
def saturate (x : Int) : Int := clampTo (-32767) 32767 x

/-- isqrt (spec 00), digit by digit in base 4; the first argument bounds the digits. -/
def isqrtFuel : Nat → Nat → Nat
  | 0, _ => 0
  | k + 1, n =>
    if n = 0 then 0
    else
      let r := 2 * isqrtFuel k (n / 4)
      if (r + 1) * (r + 1) ≤ n then r + 1 else r

/-- The floor square root (spec 00). -/
def isqrt (n : Nat) : Nat := isqrtFuel n n

/-- A count that goes up by one and stops at `top`. -/
def countUp (top n : Nat) : Nat := min top (n + 1)

/-- A number written into a 16-bit word (two's complement for a negative one). -/
def wordOf (x : Int) : Word := BitVec.ofInt 16 x

def wordOfNat (n : Nat) : Word := BitVec.ofNat 16 n

def wordOfBool (b : Bool) : Word := if b then 1#16 else 0#16

/-- The two words of a 32-bit field, low word first (spec 00, "Exchange memory layout"). -/
def wordsOf32 (x : BitVec 32) : List Word := [x.extractLsb' 0 16, x.extractLsb' 16 16]

/-- A 32-bit number from its low and high word. -/
def nat32 (low high : Word) : Nat := low.toNat + high.toNat * 65536

/-- The first quadrant of the sine table of R71: 32767 × sin(2πk/1024), k = 0 .. 256. -/
def sineQuadrant : List Int :=
  [0, 201, 402, 603, 804, 1005, 1206, 1407, 1608, 1809, 2009, 2210, 2410, 2611, 2811, 3012, 3212, 3412, 3612, 3811, 4011, 4210, 4410, 4609, 4808, 5007, 5205, 5404, 5602, 5800, 5998, 6195] ++
  [6393, 6590, 6786, 6983, 7179, 7375, 7571, 7767, 7962, 8157, 8351, 8545, 8739, 8933, 9126, 9319, 9512, 9704, 9896, 10087, 10278, 10469, 10659, 10849, 11039, 11228, 11417, 11605, 11793, 11980, 12167, 12353] ++
  [12539, 12725, 12910, 13094, 13279, 13462, 13645, 13828, 14010, 14191, 14372, 14553, 14732, 14912, 15090, 15269, 15446, 15623, 15800, 15976, 16151, 16325, 16499, 16673, 16846, 17018, 17189, 17360, 17530, 17700, 17869, 18037] ++
  [18204, 18371, 18537, 18703, 18868, 19032, 19195, 19357, 19519, 19680, 19841, 20000, 20159, 20317, 20475, 20631, 20787, 20942, 21096, 21250, 21403, 21554, 21705, 21856, 22005, 22154, 22301, 22448, 22594, 22739, 22884, 23027] ++
  [23170, 23311, 23452, 23592, 23731, 23870, 24007, 24143, 24279, 24413, 24547, 24680, 24811, 24942, 25072, 25201, 25329, 25456, 25582, 25708, 25832, 25955, 26077, 26198, 26319, 26438, 26556, 26674, 26790, 26905, 27019, 27133] ++
  [27245, 27356, 27466, 27575, 27683, 27790, 27896, 28001, 28105, 28208, 28310, 28411, 28510, 28609, 28706, 28803, 28898, 28992, 29085, 29177, 29268, 29358, 29447, 29534, 29621, 29706, 29791, 29874, 29956, 30037, 30117, 30195] ++
  [30273, 30349, 30424, 30498, 30571, 30643, 30714, 30783, 30852, 30919, 30985, 31050, 31113, 31176, 31237, 31297, 31356, 31414, 31470, 31526, 31580, 31633, 31685, 31736, 31785, 31833, 31880, 31926, 31971, 32014, 32057, 32098] ++
  [32137, 32176, 32213, 32250, 32285, 32318, 32351, 32382, 32412, 32441, 32469, 32495, 32521, 32545, 32567, 32589, 32609, 32628, 32646, 32663, 32678, 32692, 32705, 32717, 32728, 32737, 32745, 32752, 32757, 32761, 32765, 32766] ++
  [32767]

/-- The table SIN of R71. -/
def sine (k : Nat) : Int :=
  let k := k % 1024
  if k ≤ 256 then sineQuadrant.getD k 0
  else if k ≤ 512 then sineQuadrant.getD (512 - k) 0
  else if k ≤ 768 then -sineQuadrant.getD (k - 512) 0
  else -sineQuadrant.getD (1024 - k) 0

/-- s of R71 for a flux angle. -/
def sinOf (theta : Nat) : Int := sine (theta / 64)

/-- c of R71 for a flux angle. -/
def cosOf (theta : Nat) : Int := sine ((theta + 16384) % 65536 / 64)

/-- One bit taken into the check register (R84). -/
def checkBit (reg : Word) (bit : Bool) : Word :=
  let shifted := reg <<< 1
  if (reg.getLsbD 15) ^^ bit then shifted ^^^ 0x1021#16 else shifted

/-- One word taken into the check register, bit 15 first (R84). -/
def checkStep (reg : Word) (w : Word) : Word :=
  [15, 14, 13, 12, 11, 10, 9, 8, 7, 6, 5, 4, 3, 2, 1, 0].foldl
    (fun r k => checkBit r (w.getLsbD k)) reg

/-- The check word of a run of words (R84). -/
def checkWord (ws : List Word) : Word := ws.foldl checkStep 0xFFFF#16

/-- Breakaway allowance in frames of a duration code (spec 02, "Code tables"). -/
def breakawayFrames (code : Nat) : Nat :=
  [2000, 4000, 6000, 10000, 15000, 20000, 30000, 45000].getD code 0

/-- Derate hold in frames of a hold code (R145); code 0 holds nothing. -/
def holdFrames (code : Nat) : Nat :=
  [0, 5000, 15000, 45000, 120000, 300000, 600000, 1200000].getD code 0

/-- The kind an order cell's kind word names (spec 01, "Kinds", R15). -/
def orderKind (kind : Word) : OrderKind :=
  match kind.toNat with
  | 1 => .applySettings
  | 2 => .applyRatings
  | 3 => .run
  | 4 => .stop
  | 5 => .halt
  | 6 => .setSpeed
  | 7 => .clearTrip
  | 8 => .motorOut
  | 9 => .motorIn
  | 10 => .capture
  | 11 => .captureCancel
  | 12 => .vibSelftest
  | 13 => .linkTest
  | 14 => .linkReset
  | _ => .unknown

/-- An argument that names a motor: 1 motor A, 2 motor B (spec 01, before R15). -/
def motorArgument (w : Word) : Option Motor :=
  match w.toNat with
  | 1 => some .a
  | 2 => some .b
  | _ => none

/-- An argument that names a motor set: 1, 2 or 3 (spec 01, before R15). -/
def motorSetArgument (w : Word) : Option (PerMotor Bool) :=
  match w.toNat with
  | 1 => some { a := true, b := false }
  | 2 => some { a := false, b := true }
  | 3 => some { a := true, b := true }
  | _ => none

/-- An argument that names a capture engine (R24, R25). -/
def engineArgument (w : Word) : Option EngineId :=
  match w.toNat with
  | 0 => some .e0
  | 1 => some .e1
  | _ => none

end Sys2Proof
end

