-- ==== Sys2Proof/Machine/Settings.lean ====
section
/-! DEFINITION. Settings and ratings (spec 02): the fields of a page and of the ratings record, their
validation, and the reset copies. -/

namespace Sys2Proof

/-! ## Validation of a copy, field by field -/

/-- What validation does with a value outside a field's range (spec 02, the "outside range" column). -/
inductive Outside | clamped | refused
deriving DecidableEq, Repr

/-- One row of a field table: how the word is read, its range, and what an outside value does. -/
structure FieldRule where
  signed : Bool
  lo : Int
  hi : Int
  outside : Outside
deriving DecidableEq, Repr

/-- "(no range)": the field takes every value. -/
def FieldRule.free : FieldRule := { signed := false, lo := 0, hi := 65535, outside := .clamped }
def FieldRule.clampU (lo hi : Int) : FieldRule := { signed := false, lo, hi, outside := .clamped }
def FieldRule.clampS (lo hi : Int) : FieldRule := { signed := true, lo, hi, outside := .clamped }
def FieldRule.refuseU (lo hi : Int) : FieldRule := { signed := false, lo, hi, outside := .refused }
def FieldRule.refuseS (lo hi : Int) : FieldRule := { signed := true, lo, hi, outside := .refused }

/-- The word read as the field's column says. -/
def FieldRule.value (r : FieldRule) (w : Word) : Int := if r.signed then w.toInt else (w.toNat : Int)

/-- A field of the copy after R30: its word, and whether it was clamped or failed. -/
structure FieldCheck where
  word : Word
  clamped : Bool
  failed : Bool
deriving DecidableEq, Repr

/-- R30 for one field by its own range. -/
def FieldRule.check (r : FieldRule) (w : Word) : FieldCheck :=
  let v := r.value w
  if r.lo ≤ v ∧ v ≤ r.hi then { word := w, clamped := false, failed := false }
  else match r.outside with
    | .clamped => { word := wordOf (clampTo r.lo r.hi v), clamped := true, failed := false }
    | .refused => { word := w, clamped := false, failed := true }

/-- The clamped copy, with the byte offsets of the clamped and of the failing fields, ascending. -/
structure Validation where
  copy : List Word
  clamps : List Nat
  fails : List Nat
deriving DecidableEq, Repr

/-- R30: every word of the copy against its row, from byte offset `off` on. -/
def validateFrom (off : Nat) : List FieldRule → List Word → Validation
  | r :: rs, w :: ws =>
    let c := r.check w
    let rest := validateFrom (off + 2) rs ws
    { copy := c.word :: rest.copy
      clamps := if c.clamped then off :: rest.clamps else rest.clamps
      fails := if c.failed then off :: rest.fails else rest.fails }
  | _, _ => { copy := [], clamps := [], fails := [] }

/-- The word of a copy at a byte offset within the page or record. -/
def copyWord (ws : List Word) (off : Nat) : Word := ws.getD (off / 2) 0#16
def copyNat (ws : List Word) (off : Nat) : Nat := (copyWord ws off).toNat
def copyInt (ws : List Word) (off : Nat) : Int := (copyWord ws off).toInt

/-- The lowest of a list of offsets. -/
def lowest : List Nat → Option Nat
  | [] => none
  | x :: xs => some (match lowest xs with
    | some y => min x y
    | none => x)

/-! ## The settings page -/

/-- Offset of the words of group `g` in a page. -/
def groupOffset (g : Nat) : Nat := 0x05E + g * 10
/-- Offset of the alert word of band `b` and group `g`; the danger word follows. -/
def thresholdOffset (b g : Nat) : Nat := 0x086 + (b * 4 + g) * 4
/-- Offset of the self-test min of channel `k`; the max follows. -/
def selftestOffset (k : Nat) : Nat := 0x106 + k * 4

/-- The rows of the settings page in ascending offset (spec 02, "The settings page"). -/
def pageScalarRules : List FieldRule :=
  [.free,                       -- 0x000 page tag
   .free,                       -- 0x002 KP
   .free,                       -- 0x004 KI
   .clampU 16384 32767,         -- 0x006 VLIM
   .clampU 0 32767,             -- 0x008 KEMF
   .clampS 1024 24576,          -- 0x00A flux current reference
   .clampU 50 2000,             -- 0x00C magnetizing time
   .free,                       -- 0x00E KPS
   .free,                       -- 0x010 KIS
   .clampS 0 8192,              -- 0x012 maximum speed
   .clampU 1 4096,              -- 0x014 acceleration
   .clampU 1 4096,              -- 0x016 deceleration
   .clampS 0 8192,              -- 0x018 creep threshold
   .clampS 0 8192,              -- 0x01A standstill threshold
   .clampS 0 8192,              -- 0x01C motoring limit
   .clampS 0 8192,              -- 0x01E regenerating limit
   .clampS 0 8192,              -- 0x020 breakaway limit
   .refuseU 0 7,                -- 0x022 breakaway duration code
   .clampU 1 4096,              -- 0x024 stop torque ramp
   .clampU 0 256,               -- 0x026 share A
   .refuseU 0 1,                -- 0x028 single-motor running allowed
   .clampS 0 16384,             -- 0x02A gear cap, motoring
   .clampS 0 16384,             -- 0x02C gear cap, regenerating
   .refuseU 0 65535,            -- 0x02E gear trip level
   .clampU 1 255,               -- 0x030 gear trip persistence
   .refuseU 16 22,              -- 0x032 thermal shift
   .free,                       -- 0x034 thermal derate-start level
   .refuseU 0 65535,            -- 0x036 thermal trip level
   .clampU 0 32767,             -- 0x038 high-pass coefficient
   .refuseU 9 12,               -- 0x03A window code w
   .refuseU 0 255,              -- 0x03C channel enable set
   .clampU 1 15,                -- 0x03E alert persistence
   .clampU 1 15,                -- 0x040 danger persistence
   .refuseU 0 448,              -- 0x042 pre-trip length P
   .refuseU 0 128,              -- 0x044 post-trip length Q
   .clampU 1 8,                 -- 0x046 link loss tolerance
   .refuseS 0 32767,            -- 0x048 mismatch tolerance
   .clampU 1 255,               -- 0x04A mismatch persistence
   .refuseU 0 63,               -- 0x04C escalation set
   .refuseU 0 63]               -- 0x04E class choices

/-- The five words of a group: margin, alert, danger and lost factor, derate hold code. -/
def groupRules : List FieldRule :=
  [.clampU 0 32767, .clampU 0 32767, .clampU 0 32767, .clampU 0 32767, .refuseU 0 7]

/-- Every row of the settings page in ascending offset. -/
def pageRules : List FieldRule :=
  pageScalarRules ++
  List.replicate 7 (.refuseS (-32768) 32767) ++
  groupRules ++ groupRules ++ groupRules ++ groupRules ++
  List.replicate 80 (.refuseU 0 32767)

/-- The relations of R30 that fail in a clamped copy, each charged to the field at the higher offset. -/
def pageRelationFails (ws : List Word) : List Nat :=
  (if (copyNat ws 0x02E : Int) < copyInt ws 0x02A then [0x02E] else []) ++
  (if copyNat ws 0x036 ≤ copyNat ws 0x034 then [0x036] else []) ++
  (if 480 < copyNat ws 0x042 + copyNat ws 0x044 then [0x044] else []) ++
  (List.range 6).filterMap (fun i =>
    if copyInt ws (0x052 + 2 * i) ≤ copyInt ws (0x050 + 2 * i) then some (0x052 + 2 * i) else none) ++
  (List.range 32).filterMap (fun i =>
    if copyNat ws (0x088 + 4 * i) < copyNat ws (0x086 + 4 * i) then some (0x088 + 4 * i) else none) ++
  (List.range 8).filterMap (fun i =>
    if copyNat ws (0x108 + 4 * i) < copyNat ws (0x106 + 4 * i) then some (0x108 + 4 * i) else none)

/-- R30 for a settings page. -/
def validatePage (ws : List Word) : Validation :=
  let v := validateFrom 0 pageRules ws
  { v with fails := v.fails ++ pageRelationFails v.copy }

/-- The parameters of one vibration group (spec 02, "group parameters"). -/
structure GroupParams where
  margin : Nat
  alertFactor : Nat
  dangerFactor : Nat
  lostFactor : Nat
  holdCode : Nat
deriving DecidableEq, Repr

/-- The two levels of a band and group (spec 02, "threshold table"). -/
structure Thresholds where
  alert : Nat
  danger : Nat
deriving DecidableEq, Repr

/-- The self-test window of a channel. -/
structure SelftestRange where
  low : Nat
  high : Nat
deriving DecidableEq, Repr

/-- The active settings: the fields of the settings page (spec 02), each under its own name. -/
structure Settings where
  tag : Nat
  kp : Nat
  ki : Nat
  vlim : Nat
  kemf : Nat
  fluxRef : Int
  magnetizingTime : Nat
  kps : Nat
  kis : Nat
  maxSpeed : Int
  acceleration : Nat
  deceleration : Nat
  creep : Int
  standstill : Int
  motoringLimit : Int
  regeneratingLimit : Int
  breakawayLimit : Int
  breakawayCode : Nat
  stopRamp : Nat
  shareA : Nat
  singleAllowed : Bool
  capMotoring : Int
  capRegenerating : Int
  gearTripLevel : Nat
  gearPersistence : Nat
  thermalShift : Nat
  thermalStart : Nat
  thermalTrip : Nat
  highPass : Nat
  windowCode : Nat
  enableSet : Word
  alertPersistence : Nat
  dangerPersistence : Nat
  preTrip : Nat
  postTrip : Nat
  linkTolerance : Nat
  mismatchTolerance : Int
  mismatchPersistence : Nat
  escalation : Word
  classChoices : Word
  edges : List Int
  groups : PerGroup GroupParams
  thresholds : List (PerGroup Thresholds)
  selftest : PerAccel SelftestRange
deriving DecidableEq, Repr

/-- The five words of group `g` of a copy. -/
def groupParamsOf (ws : List Word) (g : VibGroup) : GroupParams :=
  let o := groupOffset g.number
  { margin := copyNat ws o
    alertFactor := copyNat ws (o + 2)
    dangerFactor := copyNat ws (o + 4)
    lostFactor := copyNat ws (o + 6)
    holdCode := copyNat ws (o + 8) }

/-- The fields of a validated copy under their names. -/
def Settings.ofWords (ws : List Word) : Settings :=
  { tag := copyNat ws 0x000
    kp := copyNat ws 0x002
    ki := copyNat ws 0x004
    vlim := copyNat ws 0x006
    kemf := copyNat ws 0x008
    fluxRef := copyInt ws 0x00A
    magnetizingTime := copyNat ws 0x00C
    kps := copyNat ws 0x00E
    kis := copyNat ws 0x010
    maxSpeed := copyInt ws 0x012
    acceleration := copyNat ws 0x014
    deceleration := copyNat ws 0x016
    creep := copyInt ws 0x018
    standstill := copyInt ws 0x01A
    motoringLimit := copyInt ws 0x01C
    regeneratingLimit := copyInt ws 0x01E
    breakawayLimit := copyInt ws 0x020
    breakawayCode := copyNat ws 0x022
    stopRamp := copyNat ws 0x024
    shareA := copyNat ws 0x026
    singleAllowed := copyNat ws 0x028 == 1
    capMotoring := copyInt ws 0x02A
    capRegenerating := copyInt ws 0x02C
    gearTripLevel := copyNat ws 0x02E
    gearPersistence := copyNat ws 0x030
    thermalShift := copyNat ws 0x032
    thermalStart := copyNat ws 0x034
    thermalTrip := copyNat ws 0x036
    highPass := copyNat ws 0x038
    windowCode := copyNat ws 0x03A
    enableSet := copyWord ws 0x03C
    alertPersistence := copyNat ws 0x03E
    dangerPersistence := copyNat ws 0x040
    preTrip := copyNat ws 0x042
    postTrip := copyNat ws 0x044
    linkTolerance := copyNat ws 0x046
    mismatchTolerance := copyInt ws 0x048
    mismatchPersistence := copyNat ws 0x04A
    escalation := copyWord ws 0x04C
    classChoices := copyWord ws 0x04E
    edges := (List.range 7).map (fun i => copyInt ws (0x050 + 2 * i))
    groups := PerGroup.ofFun (groupParamsOf ws)
    thresholds := (List.range 8).map (fun b => PerGroup.ofFun (fun g =>
      { alert := copyNat ws (thresholdOffset b g.number)
        danger := copyNat ws (thresholdOffset b g.number + 2) }))
    selftest := PerAccel.ofFun (fun c =>
      { low := copyNat ws (selftestOffset c.number)
        high := copyNat ws (selftestOffset c.number + 2) }) }

/-- The group parameters, thresholds and self-test windows of the reset copy: 0 in every field (R42). -/
def GroupParams.zero : GroupParams :=
  { margin := 0, alertFactor := 0, dangerFactor := 0, lostFactor := 0, holdCode := 0 }

/-- The reset copy of the settings (R42). -/
def Settings.resetCopy : Settings :=
  { tag := 0, kp := 0, ki := 0, vlim := 16384, kemf := 0, fluxRef := 0, magnetizingTime := 50
    kps := 0, kis := 0, maxSpeed := 8192, acceleration := 1, deceleration := 1, creep := 0
    standstill := 0, motoringLimit := 0, regeneratingLimit := 0, breakawayLimit := 0
    breakawayCode := 0, stopRamp := 1, shareA := 0, singleAllowed := false, capMotoring := 0
    capRegenerating := 0, gearTripLevel := 65535, gearPersistence := 255, thermalShift := 22
    thermalStart := 65534, thermalTrip := 65535, highPass := 0, windowCode := 9, enableSet := 0#16
    alertPersistence := 0, dangerPersistence := 0, preTrip := 0, postTrip := 0, linkTolerance := 8
    mismatchTolerance := 32767, mismatchPersistence := 255, escalation := 0#16, classChoices := 0#16
    edges := [0, 0, 0, 0, 0, 0, 0]
    groups := PerGroup.ofFun (fun _ => GroupParams.zero)
    thresholds := List.replicate 8 (PerGroup.ofFun (fun _ => { alert := 0, danger := 0 }))
    selftest := PerAccel.ofFun (fun _ => { low := 0, high := 0 }) }

/-- Whether the enable set enables a channel. -/
def Settings.enables (s : Settings) (c : Accel) : Bool := s.enableSet.getLsbD c.number

/-- The window length W = 2^w (R138). -/
def Settings.window (s : Settings) : Nat := 2 ^ s.windowCode

/-- The overspeed limit: nine eighths of the maximum speed, truncating (R57). -/
def Settings.overspeedLimit (s : Settings) : Int := (s.maxSpeed * 9).tdiv 8

/-- Escalation bits (spec 02, 0x04C). -/
def Settings.escalatesGroup (s : Settings) (g : VibGroup) : Bool := s.escalation.getLsbD g.number
def Settings.escalatesThermal (s : Settings) : Bool := s.escalation.getLsbD 4
def Settings.escalatesGear (s : Settings) : Bool := s.escalation.getLsbD 5

/-- The class of a cause by the cause table and the class choices in force (R156, spec 02, 0x04E).
The class of HALT is that of its order and is given where HALT is latched. -/
def Settings.classOf (s : Settings) : Cause → TripClass
  | .overcurrent _ | .inverterFault _ | .linkLost _ | .currentSensorLost _ | .encoderLost _ =>
    .inhibitOne
  | .thermal _ => if s.classChoices.getLsbD 4 then .inhibitOne else .rampAll
  | .speedMismatch | .overspeed | .external => .inhibitAll
  | .gearOverload => if s.classChoices.getLsbD 5 then .inhibitAll else .rampAll
  | .vibDanger g => if s.classChoices.getLsbD g.number then .inhibitAll else .rampAll
  | .failedStart => .rampAll
  | .halt => .inhibitAll

/-! ## The ratings record -/

/-- The rows of the ratings record in ascending offset (spec 02, "The ratings record"). -/
def ratingsRules : List FieldRule :=
  [.refuseS 1 32767,            -- 0x000 rated current
   .refuseS 1 32767,            -- 0x002 overcurrent threshold
   .refuseS 0 32767,            -- 0x004 IQLIM
   .free,                       -- 0x006 KTI
   .free,                       -- 0x008 KIT
   .free,                       -- 0x00A KSLIP
   .refuseU 256 65535,          -- 0x00C encoder counts per motor revolution
   .free,                       -- 0x00E KANG
   .free]                       -- 0x010 KSPD

/-- R44: the ranges, then IQLIM clamped to the overcurrent threshold of the copy. -/
def validateRatings (ws : List Word) : Validation :=
  let v := validateFrom 0 ratingsRules ws
  if copyInt v.copy 0x002 < copyInt v.copy 0x004 then
    { v with copy := v.copy.set 2 (copyWord v.copy 0x002), clamps := [0x004] }
  else v

/-- The active ratings. -/
structure Ratings where
  ratedCurrent : Int
  overcurrent : Int
  iqLimit : Int
  kti : Nat
  kit : Nat
  kslip : Nat
  countsPerRev : Nat
  kang : Nat
  kspd : Nat
deriving DecidableEq, Repr

def Ratings.ofWords (ws : List Word) : Ratings :=
  { ratedCurrent := copyInt ws 0x000
    overcurrent := copyInt ws 0x002
    iqLimit := copyInt ws 0x004
    kti := copyNat ws 0x006
    kit := copyNat ws 0x008
    kslip := copyNat ws 0x00A
    countsPerRev := copyNat ws 0x00C
    kang := copyNat ws 0x00E
    kspd := copyNat ws 0x010 }

/-- The reset copy of the ratings (R46). -/
def Ratings.resetCopy : Ratings :=
  { ratedCurrent := 32767, overcurrent := 32767, iqLimit := 0, kti := 0, kit := 0, kslip := 0
    countsPerRev := 256, kang := 0, kspd := 0 }

end Sys2Proof
end

