-- ==== Sys2Proof/Machine/State.lean ====
section
/-! DEFINITION. Everything the spec lets the part remember, as plain data: one structure per block
(spec 00, "How the part is built"), the part as a whole, and the machine's state around it. -/

namespace Sys2Proof.Machine

/-! ## Outcomes other than a next state -/

/-- The spec names no event that stops the part: a dropped write, a refused order, a trip and a bad
reply are all effects on its state. So there is no fault. -/
inductive Fault : Type
deriving DecidableEq, Repr

/-- Reasons to refuse a command. -/
inductive Refusal : Type
  /-- Raised by `exec` for a command that has no meaning yet; safe. No arm raises it. -/
  | notModelled (mnemonic : String)
deriving DecidableEq, Repr

/-! ## Exchange memory, pins, phase -/

/-- The exchange memory as (byte offset, byte), offsets strictly rising, no byte 0 listed. -/
abbrev Memory := List Host.Cell

/-- The phase shown in STATUS (R3, R7), with the reset under way while it is STARTING. -/
inductive Phase
  | startingPowerOn
  /-- `recordClosed`: the reset closed a FILLING record, so RECORD is raised at its end (R10, R174). -/
  | startingPart (recordClosed : Bool)
  | ready
deriving DecidableEq, Repr

/-- Lines whose level the part looks at, and the data bus as a read last drove it (pin summary). -/
structure Pins where
  resetAsserted : Bool
  tripIn : Bool
  hostData : Word
deriving DecidableEq, Repr

/-- The guard's own state beside the memory (R2). -/
structure Exchange where
  mem : Memory
  guardCount : Nat
  guardedOffset : Nat
deriving DecidableEq, Repr

/-- The attention unit (R8, R9): bit k of `pending` for source k. -/
structure Attention where
  pending : BitVec 8
  routing : Word
deriving DecidableEq, Repr

/-! ## Order unit (spec 01, 02) -/

/-- The RUN in flight (R14, R18): its cell, the motors it names, and those it is bringing in. -/
structure RunEntry where
  cell : CellId
  named : PerMotor Bool
  joining : PerMotor Bool
deriving DecidableEq, Repr

structure OrderUnit where
  taken : BitVec 32
  run : Option RunEntry
  stop : Option CellId
  selftest : Option CellId
  capture : PerEngine (Option CellId)
  linkTest : PerMotor (Option CellId)
  settings : Settings
  settingsApplied : Bool
  activePage : Nat
  applyCount : Nat
  ratings : Ratings
  ratingsApplied : Bool
deriving DecidableEq, Repr

/-! ## Acquisition (spec 03) -/

/-- The result of one conversion (R48, R49). -/
structure Sample where
  value : Int
  mark : Mark
deriving DecidableEq, Repr

def Sample.zero : Sample := { value := 0, mark := .valid }

/-- One motor's encoder and speed (R51 to R55). `disturbed` says that the encoder was invalid at some
moment since the last frame event (R53). -/
structure Encoder where
  p : Bool
  q : Bool
  lineBreak : Bool
  counter : BitVec 32
  valid : Bool
  legalRun : Nat
  disturbed : Bool
  snapshots : List (BitVec 32)
  flags : List Bool
  speed : Int
  speedValid : Bool
  invalidRun : Nat
deriving DecidableEq, Repr

structure Acquisition where
  frameCount : BitVec 32
  period : Nat
  /-- The conversion slot under way, 0 to 13, or none. -/
  slot : Option Nat
  /-- The results of the scan under way, channel 0 first. -/
  converted : List Sample
  /-- The scan result set, channel 0 first. -/
  scan : List Sample
  enc : PerMotor Encoder
  driveSpeed : Int
  driveHeld : Bool
  overspeedRun : Nat
  mismatchRun : Nat
  mismatchReported : Bool
  mismatchPresent : Bool
  testLines : BitVec 8
  published : Bool
deriving DecidableEq, Repr

/-! ## Current control (spec 04) -/

/-- The start copy of the ratings (R65). -/
structure StartCopy where
  countsPerRev : Nat
  kang : Nat
  kslip : Nat
deriving DecidableEq, Repr

structure Control where
  heldA : Int
  heldB : Int
  heldUdc : Int
  runA : Nat
  runB : Nat
  energized : Bool
  start : StartCopy
  slip : Nat
  theta : Nat
  integD : Int
  integQ : Int
  vd : Int
  vq : Int
  vAlpha : Int
  vBeta : Int
  id : Int
  iq : Int
  limited : Nat
deriving DecidableEq, Repr

/-! ## Modulator links (spec 05) -/

/-- A reply window not judged yet (R82, R85): `closed` once the timer has expired. -/
structure ReplyWindow where
  sequence : Nat
  test : Bool
  first : Option (List Word)
  further : Bool
  closed : Bool
deriving DecidableEq, Repr

structure Link where
  state : LinkState
  sequence : Nat
  window : Option ReplyWindow
  syncRun : Nat
  lossCount : Nat
  status : InverterStatus
  faultCode : Nat
  testPending : Bool
  /-- The last reference frame sent, words 0 to 3; empty before the first. -/
  sent : List Word
deriving DecidableEq, Repr

/-! ## Drive sequencer (spec 06) -/

/-- One motor's sequencer state. `ramping` says that a STOPPING motor is under a trip ramp (R96, R110); `ramp`
is the trip-ramp value, kept at 0 while it is under none (DESIGN CHOICE, log 35). -/
structure MotorSeq where
  state : MotorState
  stepCount : Nat
  idRef : Int
  ramp : Int
  ramping : Bool
deriving DecidableEq, Repr

structure Sequencer where
  motor : PerMotor MotorSeq
  group : GroupState
  setpoint : Int
  reference : Int
  remainder : Nat
  /-- Direction of the reference's last movement: true for up (R102). -/
  rising : Bool
  integrator : Int
  demand : Int
  allowance : Option Nat
deriving DecidableEq, Repr

/-! ## Torque allotment (spec 07) -/

/-- One motor's limit record and thermal state. -/
structure LimitRecord where
  thermalH : Nat
  motoring : Int
  regenerating : Int
  motoringSource : LimitSource
  regeneratingSource : LimitSource
  shown : LimitSource
  torqueRef : Int
  iqRef : Int
  estimate : Int
deriving DecidableEq, Repr

structure Allotment where
  motor : PerMotor LimitRecord
  /-- Direction of the frame (R124): true for motoring. -/
  motoringFrame : Bool
  groupLimited : Nat
  gearRun : Nat
  gearReported : Bool
  gearNoticed : Bool
  /-- Whether the last frame's work has raised LIMIT, which a frame does once (R133). -/
  limitRaised : Bool
  published : Bool
deriving DecidableEq, Repr

/-! ## Vibration watch (spec 08) -/

structure Channel where
  xPrev : Int
  yPrev : Int
  accumulator : Nat
  samples : Nat
  invalid : Nat
  alertRun : Nat
  dangerRun : Nat
  level : Nat
  state : ChannelState
deriving DecidableEq, Repr

/-- A running derate hold (R145). -/
structure Hold where
  held : VibState
  remaining : Nat
deriving DecidableEq, Repr

structure GroupWatch where
  state : VibState
  factor : Nat
  hold : Option Hold
  /-- The hold's remaining frames as last published (R146). -/
  holdShown : Nat
deriving DecidableEq, Repr

inductive TestPhase | settling | measuring | recovering
deriving DecidableEq, Repr

/-- A self-test in flight (R148, R149); the outcomes are formed as measuring ends. -/
structure Selftest where
  phase : TestPhase
  count : Nat
  set : PerAccel Bool
  outcomes : PerAccel Nat
deriving DecidableEq, Repr

structure Vibration where
  channel : PerAccel Channel
  group : PerGroup GroupWatch
  /-- The window code that the unit used last (R37). -/
  windowCode : Nat
  band : Nat
  test : Option Selftest
  published : Bool
deriving DecidableEq, Repr

/-! ## Trip unit (spec 09) -/

/-- A latched cause with the class it was latched with (R156). -/
structure Latched where
  cause : Cause
  cls : TripClass
deriving DecidableEq, Repr

/-- One motor's five words of a history entry (R165). -/
structure HistoryMotor where
  state : MotorState
  shown : LimitSource
  iqRef : Int
  iq : Int
  limit : Int
  speed : Int
deriving DecidableEq, Repr

structure HistoryEntry where
  frame : Word
  motor : PerMotor HistoryMotor
  level : PerGroup Nat
  drive : GroupState
  vib : PerGroup VibState
deriving DecidableEq, Repr

/-- A fast entry (R166): channels 0 to 5 and the period field. -/
structure FastEntry where
  samples : List Sample
  period : Nat
  frame : Nat
deriving DecidableEq, Repr

/-- The record being filled (R168 to R171). -/
structure Filling where
  slot : SlotId
  preTrip : Nat
  postTrip : Nat
  preWritten : Nat
  postWritten : Nat
  listed : Nat
  more : Nat
  frames : Nat
deriving DecidableEq, Repr

structure TripUnit where
  /-- The latched cause set, in rising cause number. -/
  latched : List Latched
  sequence : Word
  unrecorded : Nat
  filling : Option Filling
  /-- Oldest entry first. -/
  history : List HistoryEntry
  fast : List FastEntry
deriving DecidableEq, Repr

/-! ## Capture unit (spec 10) -/

inductive StartCondition | immediate | onTrip | afterOther
deriving DecidableEq, Repr

/-- An invalid sample: its index and its mark. -/
structure Note where
  index : Nat
  mark : Mark
deriving DecidableEq, Repr

structure Engine where
  state : EngineState
  channel : Nat
  base : Nat
  requested : Nat
  start : StartCondition
  written : Nat
  remaining : Nat
  /-- The open block, oldest sample first. -/
  block : List Int
  /-- The invalid samples of the open block, by index within the block. -/
  notes : List Note
  rangeCount : Nat
  lateCount : Nat
  /-- The first invalid sample of the written blocks, by index within the capture. -/
  firstInvalid : Option Note
  /-- The frame count and the period position of the first sample. -/
  firstTime : Option (BitVec 32 × Nat)
deriving DecidableEq, Repr

/-! ## The part, its due work, and the state -/

/-- All of the part's own state. -/
structure Part where
  phase : Phase
  pins : Pins
  exch : Exchange
  attn : Attention
  orders : OrderUnit
  acq : Acquisition
  ctl : PerMotor Control
  links : PerMotor Link
  seq : Sequencer
  allot : Allotment
  vib : Vibration
  trip : TripUnit
  cap : PerEngine Engine
deriving DecidableEq, Repr

/-- Work that an earlier command has brought about. The first group are rows of the table of operations
and events; the second are the stretches of a block's work that lie between such rows. -/
inductive Work
  | supervisionFrame
  | scanComplete
  | replyWindowClose (m : Motor)
  | currentSensorLost (m : Motor)
  | windowEnd (c : Accel)
  | captureBlockWrite (e : EngineId)
  | captureComplete (e : EngineId)
  | selftestSettlingEnd
  | selftestMeasuringEnd
  | selftestEnd
  | encoderValidRegained (m : Motor)
  | encoderLost (m : Motor)
  | overspeed
  | speedMismatch
  | order (kind : OrderKind) (cell : CellId)
  | linkUp (m : Motor)
  | linkLost (m : Motor)
  | recordClose
  | tripRampEnd (m : Motor)
  | magnetizingRampFinished
  | failedStart
  | gearOverload
  | derateHoldExpiry (g : VibGroup)
  /-- A block's frame work as a whole. -/
  | frameOf (b : FrameBlock)
  /-- Steps 3 and 4 of the sequencer's frame (R98). -/
  | sequencerStart
  /-- Steps 5 to 7 of the sequencer's frame; `failed` when step 3 found the allowance run out. -/
  | sequencerLoop (failed : Bool)
  /-- The order unit's reading of one cell (R12). -/
  | scanCell (n : CellId)
  /-- Forming and publishing the vibration watch's frame values (R146). -/
  | vibrationPublish
  /-- A receiver's work on a scan's results. -/
  | scanTo (b : ScanBlock)
  /-- The current control computation of one motor, steps 2 to 5 of R64. -/
  | controlCompute (m : Motor)
  /-- Forming the group states at the end of a scan's vibration work (R144). -/
  | vibrationGroups
deriving DecidableEq, Repr

/-- The machine's state: the commands that wait, the work that is due, and the part. -/
structure State where
  pending : List Instr
  agenda : List Work
  part : Part
deriving DecidableEq, Repr

/-! ## Values after a reset -/

/-- R61, with the encoder's validity as at the end of a reset (R52). -/
def Encoder.atReset (p q lineBreak : Bool) : Encoder :=
  { p, q, lineBreak, counter := 0#32, valid := !lineBreak, legalRun := if lineBreak then 0 else 16
    disturbed := lineBreak, snapshots := List.replicate 8 0#32, flags := List.replicate 8 false
    speed := 0, speedValid := true, invalidRun := 0 }

/-- R61. -/
def Acquisition.atReset (enc : PerMotor Encoder) : Acquisition :=
  { frameCount := 0#32, period := 0, slot := none, converted := []
    scan := List.replicate 14 Sample.zero, enc, driveSpeed := 0, driveHeld := false
    overspeedRun := 0, mismatchRun := 0, mismatchReported := false, mismatchPresent := false
    testLines := 0#8, published := false }

/-- R81. -/
def Control.atReset : Control :=
  { heldA := 0, heldB := 0, heldUdc := 0, runA := 0, runB := 0, energized := false
    start := { countsPerRev := 256, kang := 0, kslip := 0 }, slip := 0, theta := 0, integD := 0
    integQ := 0, vd := 0, vq := 0, vAlpha := 0, vBeta := 0, id := 0, iq := 0, limited := 0 }

/-- R94, in the link state given. -/
def Link.atReset (state : LinkState) : Link :=
  { state, sequence := 0, window := none, syncRun := 0, lossCount := 0, status := .notReady
    faultCode := 0, testPending := false, sent := [] }

/-- R117. -/
def Sequencer.atReset : Sequencer :=
  { motor := PerMotor.both { state := .stopped, stepCount := 0, idRef := 0, ramp := 0, ramping := false }
    group := .idle, setpoint := 0, reference := 0, remainder := 0, rising := false, integrator := 0
    demand := 0, allowance := none }

/-- R135 for one motor whose thermal state is `h`. -/
def LimitRecord.atReset (h : Nat) : LimitRecord :=
  { thermalH := h, motoring := 0, regenerating := 0, motoringSource := .sequencer
    regeneratingSource := .sequencer, shown := .sequencer, torqueRef := 0, iqRef := 0, estimate := 0 }

/-- R135, with the thermal states given. -/
def Allotment.atReset (h : PerMotor Nat) : Allotment :=
  { motor := h.map LimitRecord.atReset, motoringFrame := true, groupLimited := 0, gearRun := 0
    gearReported := false, gearNoticed := false, limitRaised := false, published := false }

/-- A channel with everything at 0, in the state given (R38, R153). -/
def Channel.cleared (state : ChannelState) : Channel :=
  { xPrev := 0, yPrev := 0, accumulator := 0, samples := 0, invalid := 0, alertRun := 0
    dangerRun := 0, level := 0, state }

/-- R153. -/
def Vibration.atReset : Vibration :=
  { channel := PerAccel.ofFun (fun _ => Channel.cleared .disabled)
    group := PerGroup.ofFun (fun _ =>
      { state := .disabled, factor := 32767, hold := none, holdShown := 0 })
    windowCode := 9, band := 0, test := none, published := false }

/-- R174, R175: the set and the rings empty, the two counts as given. -/
def TripUnit.atReset (sequence : Word) (unrecorded : Nat) : TripUnit :=
  { latched := [], sequence, unrecorded, filling := none, history := [], fast := [] }

/-- R186. The start condition is none of a capture while the engine is IDLE, and no reader looks at it then;
the field holds IMMEDIATE in place of none (DESIGN CHOICE, log 34). -/
def Engine.atReset : Engine :=
  { state := .idle, channel := 0, base := 0, requested := 0, start := .immediate, written := 0
    remaining := 0, block := [], notes := [], rangeCount := 0, lateCount := 0, firstInvalid := none
    firstTime := none }

/-- R12, R14, R42, R46. -/
def OrderUnit.atReset : OrderUnit :=
  { taken := 0#32, run := none, stop := none, selftest := none
    capture := { e0 := none, e1 := none }, linkTest := PerMotor.both none
    settings := Settings.resetCopy, settingsApplied := false, activePage := 0, applyCount := 0
    ratings := Ratings.resetCopy, ratingsApplied := false }

/-- R8, R9. -/
def Attention.atReset : Attention := { pending := 0#8, routing := 0#16 }

/-- The exchange memory after power-on: 0 but for the identity block (R3, R4). -/
def Memory.atPowerOn : Memory :=
  [(0x00, 0x32#8), (0x01, 0x4B#8), (0x02, 1#8), (0x04, 1#8), (0x06, 16#8), (0x08, 4#8),
   (0x0B, 0x40#8), (0x0F, 0xC0#8), (0x13, 0x02#8), (0x14, 0xE0#8), (0x15, 0x01#8)]

/-- The part at the end of a power-on reset with every input line released (DESIGN CHOICE, log 9). -/
def Part.reset : Part :=
  { phase := .ready
    pins := { resetAsserted := false, tripIn := false, hostData := 0#16 }
    exch := { mem := Memory.atPowerOn, guardCount := 0, guardedOffset := 0 }
    attn := Attention.atReset
    orders := OrderUnit.atReset
    acq := Acquisition.atReset (PerMotor.both (Encoder.atReset false false false))
    ctl := PerMotor.both Control.atReset
    links := PerMotor.both (Link.atReset .syncing)
    seq := Sequencer.atReset
    allot := Allotment.atReset (PerMotor.both 0)
    vib := Vibration.atReset
    trip := TripUnit.atReset 0#16 0
    cap := { e0 := Engine.atReset, e1 := Engine.atReset } }

/-- The machine right after a power-on reset: nothing waits and nothing is due. -/
def State.reset : State := { pending := [], agenda := [], part := Part.reset }

end Sys2Proof.Machine
end

