-- ==== Sys2Proof/Machine/Flags.lean ====
section
/-! DEFINITION. The flags the part shows: updating one block of the part, the attention sources and their
lines (R8, R9), STATUS (R7), the latched cause set (R155 to R157) and the INHIBIT lines (R91). -/

namespace Sys2Proof.Machine

/-! ## One block replaced, the others kept -/

def Part.setPhase (p : Part) (v : Phase) : Part := { p with phase := v }
def Part.setPins (p : Part) (v : Pins) : Part := { p with pins := v }
def Part.setExch (p : Part) (v : Exchange) : Part := { p with exch := v }
def Part.setMem (p : Part) (m : Memory) : Part := { p with exch := { p.exch with mem := m } }
def Part.setAttn (p : Part) (v : Attention) : Part := { p with attn := v }
def Part.setOrders (p : Part) (v : OrderUnit) : Part := { p with orders := v }
def Part.setAcq (p : Part) (v : Acquisition) : Part := { p with acq := v }
def Part.setCtl (p : Part) (v : PerMotor Control) : Part := { p with ctl := v }
def Part.setLinks (p : Part) (v : PerMotor Link) : Part := { p with links := v }
def Part.setSeq (p : Part) (v : Sequencer) : Part := { p with seq := v }
def Part.setAllot (p : Part) (v : Allotment) : Part := { p with allot := v }
def Part.setVib (p : Part) (v : Vibration) : Part := { p with vib := v }
def Part.setTrip (p : Part) (v : TripUnit) : Part := { p with trip := v }
def Part.setCap (p : Part) (v : PerEngine Engine) : Part := { p with cap := v }

/-- The state of motor `m` as the sequencer published it last. -/
def Part.motorState (p : Part) (m : Motor) : MotorState := (p.seq.motor.get m).state

/-- The settings in force. -/
def Part.settings (p : Part) : Settings := p.orders.settings

/-! ## Attention (R8, R9) -/

/-- The attention sources (spec 01). -/
inductive Source | order | trip | record | limit | vibration | capture | guard | link
deriving DecidableEq, Repr

def Source.number : Source → Nat
  | .order => 0 | .trip => 1 | .record => 2 | .limit => 3
  | .vibration => 4 | .capture => 5 | .guard => 6 | .link => 7

def Source.all : List Source := [.order, .trip, .record, .limit, .vibration, .capture, .guard, .link]

/-- A source becomes pending; one that is pending stays pending (R8). -/
def raiseSource (src : Source) (p : Part) : Part :=
  p.setAttn { p.attn with pending := p.attn.pending ||| (1#8 <<< src.number) }

/-- A write of ones to ATTENTION: those sources are no longer pending (R8). -/
def acknowledge (value : Word) (a : Attention) : Attention :=
  { a with pending := a.pending &&& ~~~(value.extractLsb' 0 8) }

/-- The routing code of a source: 0 none, 1 NOTE, 2 ALERT (R9). -/
def routeOf (routing : Word) (src : Source) : Nat := (routing.extractLsb' (2 * src.number) 2).toNat

/-- A written routing value with every field of 3 stored as 0 (R9). -/
def routingStored (value : Word) : Word :=
  let low := value &&& 0x5555#16
  let high := (value >>> 1) &&& 0x5555#16
  let three := low &&& high
  value &&& ~~~(three ||| (three <<< 1))

/-- Whether some pending source is routed to `code` (R9). -/
def lineAsserted (code : Nat) (a : Attention) : Bool :=
  Source.all.any (fun src => a.pending.getLsbD src.number && routeOf a.routing src == code)

/-- The NOTE and ALERT lines (R9). -/
def noteLine (p : Part) : Bool := lineAsserted 1 p.attn
def alertLine (p : Part) : Bool := lineAsserted 2 p.attn

/-- STATUS as a read shows it (R7); during STARTING the flags and the count are 0 by the reset. -/
def statusWord (p : Part) : Word :=
  (match p.phase with | .ready => 0x8000#16 | .startingPowerOn | .startingPart _ => 0#16) |||
  (if p.orders.settingsApplied then 0x4000#16 else 0#16) |||
  (if p.orders.ratingsApplied then 0x2000#16 else 0#16) |||
  wordOfNat (p.acq.frameCount.toNat % 8192)

/-! ## The latched cause set (R155 to R157) -/

/-- The class a cause is latched with, if it is latched. -/
def latchedClass (ls : List Latched) (c : Cause) : Option TripClass :=
  (ls.find? (fun l => l.cause == c)).map (fun l => l.cls)

def isLatched (ls : List Latched) (c : Cause) : Bool := ls.any (fun l => l.cause == c)

/-- A cause put into the set at its place by number; one that is in the set is replaced in place. -/
def latchInto (l : Latched) : List Latched → List Latched
  | [] => [l]
  | x :: xs =>
    if l.cause.number < x.cause.number then l :: x :: xs
    else if l.cause.number = x.cause.number then l :: xs
    else x :: latchInto l xs

/-- A latched cause that belongs to motor `m` (R157). -/
def motorCauseLatched (ls : List Latched) (m : Motor) : Bool := ls.any (fun l => l.cause.owner == some m)

/-- A latched group cause (R157). -/
def groupCauseLatched (ls : List Latched) : Bool := ls.any (fun l => l.cause.owner == none)

/-- "Inhibit-class cause for motor m" (R157, R83). -/
def inhibitLatched (ls : List Latched) (m : Motor) : Bool :=
  ls.any (fun l => l.cls == .inhibitAll || (l.cls == .inhibitOne && l.cause.owner == some m))

/-- The set as the two words of the live block and of trip records (spec 09, "Causes"). -/
def latchedBits (ls : List Latched) : BitVec 32 :=
  ls.foldl (fun acc l => acc ||| (1#32 <<< l.cause.number)) 0#32

/-- The INHIBIT line of motor `m` (R91). -/
def inhibitLine (p : Part) (m : Motor) : Bool :=
  (match p.phase with | .ready => false | .startingPowerOn | .startingPart _ => true) ||
  !(p.motorState m).energized || inhibitLatched p.trip.latched m

/-- The test line of channel `c` (R60). -/
def testLine (p : Part) (c : Accel) : Bool := p.acq.testLines.getLsbD c.number

end Sys2Proof.Machine
end

