-- ==== Sys2Proof/Machine/Ops.lean ====
section
/-! DEFINITION. The operations over the exchange memory, the order cells and the trip-record slots that
every block uses. -/

namespace Sys2Proof.Machine

/-! ## Bytes and words of the exchange memory -/

/-- The byte at an offset; one that is not listed is 0 (R3: power-on zeroes the memory). -/
def readByte : Memory → Nat → Byte
  | [], _ => 0#8
  | (x, v) :: rest, a => if x = a then v else readByte rest a

/-- A byte written, the canonical form kept: rising offsets, no byte 0 listed. -/
def writeByte : Memory → Nat → Byte → Memory
  | [], a, v => if v = 0#8 then [] else [(a, v)]
  | (x, w) :: rest, a, v =>
    if a < x then (if v = 0#8 then (x, w) :: rest else (a, v) :: (x, w) :: rest)
    else if a = x then (if v = 0#8 then rest else (a, v) :: rest)
    else (x, w) :: writeByte rest a v

/-- The word at an even byte offset: its low byte at the lower offset (DESIGN CHOICE, log 7). -/
def readWord (m : Memory) (off : Nat) : Word := readByte m (off + 1) ++ readByte m off

/-- A whole word replaced (R1). -/
def writeWord (m : Memory) (off : Nat) (w : Word) : Memory :=
  writeByte (writeByte m off (w.extractLsb' 0 8)) (off + 1) (w.extractLsb' 8 8)

/-- A run of words, in ascending offset. -/
def writeWords (m : Memory) (off : Nat) : List Word → Memory
  | [] => m
  | w :: ws => writeWords (writeWord m off w) (off + 2) ws

/-- `n` words from an offset on, in ascending offset. -/
def readWords (m : Memory) (off : Nat) : Nat → List Word
  | 0 => []
  | n + 1 => readWord m off :: readWords m (off + 2) n

/-- Named words of a record, each at its offset from `base`. -/
def writeFields (m : Memory) (base : Nat) : List (Nat × Word) → Memory
  | [] => m
  | (off, w) :: rest => writeFields (writeWord m (base + off) w) base rest

/-- Every byte from `lo` up to but not including `hi` becomes 0. -/
def zeroRange (m : Memory) (lo hi : Nat) : Memory := m.filter (fun c => c.1 < lo || hi ≤ c.1)

/-- The canonical form: offsets strictly rising, no byte 0 listed. -/
def Memory.wf : Memory → Bool
  | [] => true
  | [(_, v)] => v != 0#8
  | (x, v) :: (y, w) :: rest => v != 0#8 && x < y && Memory.wf ((y, w) :: rest)

/-! ## Order cells (R11 to R13) -/

/-- The state words of a cell (spec 01, "Order cells"). -/
abbrev cellEmpty : Word := 0#16
abbrev cellPosted : Word := 1#16
abbrev cellTaken : Word := 2#16
abbrev cellDone : Word := 3#16
abbrev cellRefused : Word := 4#16

def cellOffset (n : CellId) : Nat := Config.cellBase + n.val * Config.cellBytes

def cellState (p : Part) (n : CellId) : Word := readWord p.exch.mem (cellOffset n)

def cellKind (p : Part) (n : CellId) : Word := readWord p.exch.mem (cellOffset n + 0x02)

/-- Argument `k` of a cell. -/
def cellArg (p : Part) (n : CellId) (k : Nat) : Word := readWord p.exch.mem (cellOffset n + 0x20 + 2 * k)

/-- The result codes (spec 01, "Result codes"). -/
inductive ResultCode
  | ok | appliedWithClamps | clamped | superseded | abortedByTrip | cancelled | abortedUpstream
  | already | stillPresent | pass | fail
  | unknownKind | badArgument | busy | notIdle | noSettings | noRatings | tripLatched | linkNotUp
  | motorOut | badSettings | badRegion | overlap | nothingToFollow
deriving DecidableEq, Repr

def ResultCode.code : ResultCode → Nat
  | .ok => 0 | .appliedWithClamps => 1 | .clamped => 2 | .superseded => 3 | .abortedByTrip => 4
  | .cancelled => 5 | .abortedUpstream => 6 | .already => 7 | .stillPresent => 8 | .pass => 9
  | .fail => 10
  | .unknownKind => 0x20 | .badArgument => 0x21 | .busy => 0x22 | .notIdle => 0x23
  | .noSettings => 0x24 | .noRatings => 0x25 | .tripLatched => 0x26 | .linkNotUp => 0x27
  | .motorOut => 0x28 | .badSettings => 0x29 | .badRegion => 0x2A | .overlap => 0x2B
  | .nothingToFollow => 0x2C

/-- DONE for a completion code, REFUSED for a refusal code (R13). -/
def ResultCode.state (c : ResultCode) : Word := if c.code < 0x20 then cellDone else cellRefused

/-- Eight result values; each the kind does not give is 0 (R13). -/
def resultValues (values : List Word) : List Word := (values ++ List.replicate 8 0#16).take 8

/-- The writes that finish a cell, in the order of R13. -/
def finishedMemory (mem : Memory) (n : CellId) (frame : BitVec 32) (code : ResultCode)
    (values : List Word) : Memory :=
  let base := cellOffset n
  let mem := writeWords mem (base + 0x10) (resultValues values)
  let mem := writeWords mem (base + 0x0A) (wordsOf32 frame)
  let mem := writeWord mem (base + 0x0E) (wordOfNat code.code)
  writeWord mem base code.state

/-- A cell is finished and ORDER is raised (R13). -/
def finishCell (n : CellId) (code : ResultCode) (values : List Word) (p : Part) : Part :=
  raiseSource .order (p.setMem (finishedMemory p.exch.mem n p.acq.frameCount code values))

/-- A cell is set TAKEN (R13). -/
def setTaken (n : CellId) (p : Part) : Part := p.setMem (writeWord p.exch.mem (cellOffset n) cellTaken)

/-- The RUN in flight is finished and its entry emptied (R14, R18). -/
def finishRun (code : ResultCode) (p : Part) : Part :=
  match p.orders.run with
  | none => p
  | some r => finishCell r.cell code [] (p.setOrders { p.orders with run := none })

/-- The STOP in flight is finished and its entry emptied (R14, R19). -/
def finishStop (code : ResultCode) (p : Part) : Part :=
  match p.orders.stop with
  | none => p
  | some n => finishCell n code [] (p.setOrders { p.orders with stop := none })

/-- The CAPTURE of an engine is finished and its entry emptied (R14, R24). -/
def finishCapture (e : EngineId) (code : ResultCode) (values : List Word) (p : Part) : Part :=
  match p.orders.capture.get e with
  | none => p
  | some n =>
    finishCell n code values (p.setOrders { p.orders with capture := p.orders.capture.set e none })

/-- The LINK_TEST of a link is finished and its entry emptied (R14, R27). -/
def finishLinkTest (m : Motor) (code : ResultCode) (values : List Word) (p : Part) : Part :=
  match p.orders.linkTest.get m with
  | none => p
  | some n =>
    finishCell n code values (p.setOrders { p.orders with linkTest := p.orders.linkTest.set m none })

/-- The VIB_SELFTEST in flight is finished and its entry emptied (R14, R26). -/
def finishSelftest (code : ResultCode) (values : List Word) (p : Part) : Part :=
  match p.orders.selftest with
  | none => p
  | some n => finishCell n code values (p.setOrders { p.orders with selftest := none })

/-! ## Trip-record slots (R167) -/

abbrev slotFree : Word := 0#16
abbrev slotFilling : Word := 1#16
abbrev slotReady : Word := 2#16

def slotOffset (s : SlotId) : Nat := Config.slotBase + s.number * Config.slotBytes

def slotState (p : Part) (s : SlotId) : Word := readWord p.exch.mem (slotOffset s)

/-! ## What an event leaves: the part, and the work it brings about at once -/

/-- The part after an event, with the work that the event brings about, first to happen first. -/
structure Effect where
  part : Part
  due : List Work
deriving DecidableEq, Repr

/-- An event that brings nothing about. -/
def Effect.only (p : Part) : Effect := { part := p, due := [] }

end Sys2Proof.Machine
end

