-- ==== Sys2Proof/Machine/Capture.lean ====
section
/-! DEFINITION. The capture unit (spec 10). -/

namespace Sys2Proof.Machine

/-- The first byte after an engine's region (R24, R182). -/
def Engine.regionEnd (e : Engine) : Nat := e.base + e.requested * 512

/-- An engine whose region is guarded (R182). -/
def Engine.guards (e : Engine) : Bool :=
  match e.state with
  | .idle => false
  | .armed | .running => true

/-- Whether a byte offset lies inside an engine's guarded region (R1, R182). -/
def Engine.covers (e : Engine) (off : Nat) : Bool := e.guards && e.base ≤ off && off < e.regionEnd

/-- The result values of R185. The time is that of the first sample taken, also where a cancel comes before the
first block is written (DESIGN CHOICE, log 39). -/
def captureResults (e : Engine) : List Word :=
  let first := match e.firstInvalid with
    | some n => [wordOfNat n.index, wordOfNat n.mark.code]
    | none => [0xFFFF#16, 0#16]
  let time := match e.firstTime with
    | some (frame, period) => wordsOf32 frame ++ [wordOfNat period]
    | none => [0#16, 0#16, 0#16]
  [wordOfNat e.written, wordOfNat e.rangeCount, wordOfNat e.lateCount] ++ first ++ time

/-- Engine `e` takes in an accepted CAPTURE (R177). -/
def startCapture (e : EngineId) (channel base requested : Nat) (start : StartCondition) (p : Part) : Part :=
  p.setCap (p.cap.set e
    { Engine.atReset with
      state := match start with
        | .immediate => .running
        | .onTrip | .afterOther => .armed
      channel, base, requested, start, remaining := requested })

/-- An engine RUNNING that takes one sample (R178). -/
def Engine.take (e : Engine) (s : Sample) (frame : BitVec 32) (period : Nat) : Engine :=
  { e with
    block := e.block ++ [s.value]
    notes := if s.mark = .valid then e.notes else e.notes ++ [{ index := e.block.length, mark := s.mark }]
    firstTime := match e.firstTime with
      | some t => some t
      | none => some (frame, period) }

/-- The engines' work at a scan completion (R178): each RUNNING engine takes its channel's value; a block
that is full is due to be written. Both take their sample before either block is written, so that an
engine started by the other's completion begins with the next scan (R181). -/
def captureScan (p : Part) : Effect :=
  let step := fun e : Engine =>
    match e.state with
    | .running => e.take (p.acq.scan.getD e.channel Sample.zero) p.acq.frameCount p.acq.period
    | .idle | .armed => e
  let cap := p.cap.map step
  { part := p.setCap cap
    due := (EngineId.all.filter (fun i =>
        (cap.get i).state == .running && 256 ≤ (cap.get i).block.length)).map Work.captureBlockWrite }

/-- The mark summary with the notes of a written block added (R179). -/
def Engine.summed (e : Engine) : Engine :=
  { e with
    rangeCount := e.rangeCount + (e.notes.filter (fun n => n.mark == .invalidRange)).length
    lateCount := e.lateCount + (e.notes.filter (fun n => n.mark == .invalidLate)).length
    firstInvalid := match e.firstInvalid, e.notes with
      | some n, _ => some n
      | none, [] => none
      | none, n :: _ => some { n with index := e.written * 256 + n.index } }

/-- CAPTURE_BLOCK_WRITE (R179): the open block into the region, then the counts; the capture is complete
when no block remains. -/
def captureBlockWrite (i : EngineId) (p : Part) : Effect :=
  let e := p.cap.get i
  let mem := writeWords p.exch.mem (e.base + e.written * 512) (e.block.map wordOf)
  let e := { e.summed with
    written := e.written + 1, remaining := e.remaining - 1, block := [], notes := [] }
  { part := (p.setMem mem).setCap (p.cap.set i e)
    due := if e.remaining = 0 then [Work.captureComplete i] else [] }

/-- An engine that waits on AFTER_OTHER (R181). -/
def Engine.waits (e : Engine) : Bool := e.state == .armed && e.start == .afterOther

/-- CAPTURE_COMPLETE (R183), in its order: IDLE, the cell OK, CAPTURE, the waiting engine. -/
def captureComplete (i : EngineId) (p : Part) : Part :=
  let e := p.cap.get i
  let p := p.setCap (p.cap.set i { e with state := .idle, remaining := 0 })
  let p := finishCapture i .ok (captureResults e) p
  let p := raiseSource .capture p
  let o := p.cap.get i.other
  if o.waits then p.setCap (p.cap.set i.other { o with state := .running }) else p

/-- An engine goes IDLE with its open block discarded (R184, step 1). -/
def Engine.cancelled (e : Engine) : Engine :=
  { e with state := .idle, remaining := 0, block := [], notes := [] }

/-- Steps 1 to 3 of R184: the engine, its cell, and the engine that waits on it (R181). -/
def cancelCapture (i : EngineId) (p : Part) : Part :=
  let e := p.cap.get i
  let p := p.setCap (p.cap.set i e.cancelled)
  let p := finishCapture i .cancelled (captureResults e) p
  let o := p.cap.get i.other
  if o.waits then
    finishCapture i.other .abortedUpstream []
      (p.setCap (p.cap.set i.other { o.cancelled with written := 0 }))
  else p

/-- A trip event told to the capture unit (R180). -/
def startOnTrip (p : Part) : Part :=
  p.setCap (p.cap.map (fun e =>
    if e.state = .armed ∧ e.start = .onTrip then { e with state := .running } else e))

end Sys2Proof.Machine
end

