-- ==== Sys2Proof/Machine/Sequencer.lean ====
section
/-! DEFINITION. The drive sequencer (spec 06): hand-overs from the order unit, trip orders, and its frame
event in the steps of R98. -/

namespace Sys2Proof.Machine

/-! ## Motor states -/

/-- The sequencer limit of R96: none, or a value with the trip-ramp mark. -/
def sequencerLimit (s : MotorSeq) : Option (Int × Bool) :=
  match s.state with
  | .stopped | .magnetizing | .tripped | .out => some (0, false)
  | .running => none
  | .stopping => if s.ramping then some (s.ramp, true) else none

/-- A motor at rest in a state of R96 whose id_ref and sequencer limit are 0. -/
def MotorSeq.atRest (s : MotorSeq) (state : MotorState) : MotorSeq :=
  { state, stepCount := s.stepCount, idRef := 0, ramp := 0, ramping := false }

/-- A motor that begins to magnetize (R99, R113). -/
def MotorSeq.magnetizingFresh : MotorSeq :=
  { state := .magnetizing, stepCount := 0, idRef := 0, ramp := 0, ramping := false }

/-- Motor `m`'s sequencer state replaced. -/
def Sequencer.setMotor (q : Sequencer) (m : Motor) (s : MotorSeq) : Sequencer :=
  { q with motor := q.motor.set m s }

/-- The speed loop's values at 0, at the group's entry into IDLE (R105). -/
def Sequencer.loopCleared (q : Sequencer) : Sequencer :=
  { q with reference := 0, integrator := 0, remainder := 0, demand := 0 }

/-- The group goes to TRIPPED: the loop's values are held, a breakaway timer is discarded (R105, R107). -/
def Sequencer.groupTripped (q : Sequencer) : Sequencer :=
  { q with group := .tripped, allowance := none }

/-! ## Trip orders (R107 to R112) -/

/-- The inhibiting action on a motor (the table before R107). -/
def MotorSeq.inhibited (s : MotorSeq) : MotorSeq :=
  match s.state with
  | .out | .tripped => s
  | .stopped | .magnetizing | .running | .stopping => s.atRest .tripped

/-- A trip ramp that begins: STOPPING, from the magnitude of the torque reference (R110). -/
def MotorSeq.rampFrom (s : MotorSeq) (torqueRef : Int) : MotorSeq :=
  { s with state := .stopping, ramp := torqueRef.natAbs, ramping := true }

/-- The ramping action on a motor whose torque reference is `torqueRef` (the table before R107, R110). -/
def MotorSeq.ramped (s : MotorSeq) (torqueRef : Int) : MotorSeq :=
  match s.state with
  | .out | .tripped => s
  | .stopped | .magnetizing => s.atRest .tripped
  | .running => s.rampFrom torqueRef
  | .stopping => if s.ramping then s else s.rampFrom torqueRef

/-- An INHIBIT_ALL order (R107). -/
def inhibitAllOrder (p : Part) : Part :=
  p.setSeq { p.seq.groupTripped with motor := p.seq.motor.map MotorSeq.inhibited }

/-- A RAMP_ALL order (R109). -/
def rampAllOrder (p : Part) : Part :=
  p.setSeq { p.seq.groupTripped with
    motor := { a := p.seq.motor.a.ramped (p.allot.motor.get .a).torqueRef
               b := p.seq.motor.b.ramped (p.allot.motor.get .b).torqueRef } }

/-- Whether the drive carries on without motor `m` (R108, step 3). -/
def carriesOn (p : Part) (m : Motor) : Bool :=
  (p.seq.group == .starting || p.seq.group == .running) &&
  p.settings.singleAllowed && p.motorState m.other == .running

/-- An INHIBIT_ONE order for motor `m` (R108). -/
def inhibitOneOrder (m : Motor) (p : Part) : Part :=
  if p.motorState m = .out then p
  else
    let q := p.seq.setMotor m (p.seq.motor.get m).inhibited
    if carriesOn p m then p.setSeq q
    else
      p.setSeq (q.groupTripped.setMotor m.other
        ((q.motor.get m.other).ramped (p.allot.motor.get m.other).torqueRef))

/-! ## Hand-overs from the order unit -/

/-- Every motor of `joining` goes to MAGNETIZING: a start from IDLE (R99) or a rejoin (R113). -/
def beginMagnetizing (joining : PerMotor Bool) (p : Part) : Part :=
  p.setSeq { p.seq with
    motor := { a := if joining.a then MotorSeq.magnetizingFresh else p.seq.motor.a
               b := if joining.b then MotorSeq.magnetizingFresh else p.seq.motor.b } }

/-- What an ordered stop makes of a motor (R106). -/
def MotorSeq.orderedStop (s : MotorSeq) : MotorSeq :=
  match s.state with
  | .running => { s with state := .stopping, ramp := 0, ramping := false }
  | .magnetizing => s.atRest .stopped
  | .stopped | .stopping | .tripped | .out => s

/-- What a STOP makes of a motor that magnetizes for a start from IDLE (R106). -/
def MotorSeq.startStopped (s : MotorSeq) : MotorSeq :=
  match s.state with
  | .magnetizing => s.atRest .stopped
  | .stopped | .running | .stopping | .tripped | .out => s

/-- A STOP handed over (R106); true when the stop is complete at the hand-over. -/
def stopHandOver (p : Part) : Part × Bool :=
  match p.seq.group with
  | .starting | .running =>
    (p.setSeq { p.seq with
      group := .stopping, allowance := none, motor := p.seq.motor.map MotorSeq.orderedStop }, false)
  | .idle => (p.setSeq { p.seq with motor := p.seq.motor.map MotorSeq.startStopped }, true)
  | .stopping | .tripped => (p, false)

/-- The run counts of motor `m` that are held at 0 while it is OUT: invalid speeds (R55) and invalid samples
(R67). -/
def outRunsHeld (m : Motor) (p : Part) : Part :=
  let p := p.setAcq { p.acq with enc := p.acq.enc.modify m (fun e => { e with invalidRun := 0 }) }
  p.setCtl (p.ctl.modify m (fun c => { c with runA := 0, runB := 0 }))

/-- Motor `m` goes OUT (R114), and its run counts to 0 with it. -/
def motorOutHandOver (m : Motor) (p : Part) : Part :=
  outRunsHeld m (p.setSeq (p.seq.setMotor m ((p.seq.motor.get m).atRest .out)))

/-- Motor `m` goes from OUT to STOPPED (R114). -/
def motorInHandOver (m : Motor) (p : Part) : Part :=
  p.setSeq (p.seq.setMotor m ((p.seq.motor.get m).atRest .stopped))

/-! ## The frame event (R98) -/

/-- Step 1 for a motor: TRIPPED to STOPPED when neither a cause of its own nor a group cause is
latched (R115). -/
def releaseMotor (ls : List Latched) (m : Motor) (s : MotorSeq) : MotorSeq :=
  if s.state = .tripped ∧ motorCauseLatched ls m = false ∧ groupCauseLatched ls = false then
    s.atRest .stopped
  else s

/-- Whether every latched cause belongs to a motor that is OUT (R115). -/
def onlyOutCauses (ls : List Latched) (q : Sequencer) : Bool :=
  ls.all (fun l => match l.cause.owner with
    | some m => (q.motor.get m).state == .out
    | none => false)

/-- Step 1: the TRIPPED motors, then the TRIPPED group (R115). -/
def releaseStep (p : Part) : Part :=
  let ls := p.trip.latched
  let q : Sequencer := { p.seq with
    motor := { a := releaseMotor ls .a p.seq.motor.a, b := releaseMotor ls .b p.seq.motor.b } }
  if q.group = .tripped ∧ onlyOutCauses ls q ∧
      q.motor.a.state ≠ .stopping ∧ q.motor.b.state ≠ .stopping then
    p.setSeq { q.loopCleared with group := .idle }
  else p.setSeq q

/-- Step 2 for a motor: the trip-ramp value falls by the stop torque ramp, to 0 at the least (R111). -/
def MotorSeq.rampStep (s : MotorSeq) (rate : Nat) : MotorSeq :=
  if s.state = .stopping ∧ s.ramping then { s with ramp := max 0 (s.ramp - rate) } else s

/-- A motor STOPPING under a trip ramp whose value is 0 (R111). -/
def MotorSeq.rampDone (s : MotorSeq) : Bool := s.state == .stopping && s.ramping && s.ramp == 0

/-- Steps 1 and 2 of R98; the ends of trip ramps come before step 3. -/
def sequencerFrame (p : Part) : Effect :=
  let p := releaseStep p
  let rate := p.settings.stopRamp
  let motors := p.seq.motor.map (fun s => s.rampStep rate)
  { part := p.setSeq { p.seq with motor := motors }
    due := (Motor.all.filter (fun m => (motors.get m).rampDone)).map Work.tripRampEnd ++
      [Work.sequencerStart] }

/-- TRIP_RAMP_END: the motor goes to TRIPPED with id_ref and sequencer limit 0 (R111). -/
def tripRampEnd (m : Motor) (p : Part) : Part :=
  p.setSeq (p.seq.setMotor m ((p.seq.motor.get m).atRest .tripped))

/-- Step 3: creep speed, then the breakaway allowance (R101); true when the allowance has run out in
this frame. -/
def startStep (p : Part) : Part × Bool :=
  if p.seq.group = .starting then
    if p.settings.creep ≤ p.acq.driveSpeed then
      (finishRun .ok (p.setSeq { p.seq with group := .running, allowance := none }), false)
    else
      match p.seq.allowance with
      | some (n + 1) => (p.setSeq { p.seq with allowance := some n }, n == 0)
      | some 0 | none => (p, false)
  else (p, false)

/-- Step 4 for a motor: one step of the magnetizing ramp (R100). -/
def MotorSeq.magnetizingStep (s : MotorSeq) (flux : Int) (time : Nat) : MotorSeq :=
  if s.state = .magnetizing then
    let k := countUp 65535 s.stepCount
    { s with stepCount := k, idRef := (flux * (min k time : Nat)).tdiv time }
  else s

/-- A MAGNETIZING motor whose ramp is finished: its step count is not less than T (R100). -/
def MotorSeq.magnetized (time : Nat) (s : MotorSeq) : Bool :=
  s.state == .magnetizing && time ≤ s.stepCount

/-- Whether MAGNETIZING_RAMP_FINISHED comes about in this frame: for a start from IDLE when every
MAGNETIZING motor's ramp is finished, for a rejoin when any is (R100). -/
def rampFinished (time : Nat) (q : Sequencer) : Bool :=
  let waiting := [q.motor.a, q.motor.b].filter (fun s => s.state == .magnetizing)
  if q.group = .idle then !waiting.isEmpty && waiting.all (fun s => s.magnetized time)
  else waiting.any (fun s => s.magnetized time)

/-- Steps 3 and 4 of R98. -/
def sequencerStart (p : Part) : Effect :=
  let (p, failed) := startStep p
  let s := p.settings
  let q : Sequencer := { p.seq with
    motor := p.seq.motor.map (fun m => m.magnetizingStep s.fluxRef s.magnetizingTime) }
  { part := p.setSeq q
    due := (if rampFinished s.magnetizingTime q then [Work.magnetizingRampFinished] else []) ++
      [Work.sequencerLoop failed] }

/-- A magnetized motor goes to RUNNING. -/
def MotorSeq.toRunning (s : MotorSeq) : MotorSeq :=
  { s with state := .running, ramp := 0, ramping := false }

/-- Whether every motor of a set is RUNNING. -/
def allRunning (set : PerMotor Bool) (q : Sequencer) : Bool :=
  (!set.a || q.motor.a.state == .running) && (!set.b || q.motor.b.state == .running)

/-- MAGNETIZING_RAMP_FINISHED: from IDLE the start enters STARTING (R100, R101); in a running group the
finished rejoins complete (R113). -/
def magnetizingRampFinished (p : Part) : Part :=
  let time := p.settings.magnetizingTime
  if p.seq.group = .idle then
    p.setSeq { p.seq with
      motor := p.seq.motor.map (fun s => if s.state = .magnetizing then s.toRunning else s)
      group := .starting
      reference := p.acq.driveSpeed
      integrator := 0
      remainder := 0
      demand := 0
      allowance := some (breakawayFrames p.settings.breakawayCode) }
  else
    let p := p.setSeq { p.seq with
      motor := p.seq.motor.map (fun s => if s.magnetized time then s.toRunning else s) }
    match p.orders.run with
    | some r => if allRunning r.joining p.seq then finishRun .ok p else p
    | none => p

/-- The reference ramp of R102: reference, remainder and direction after one frame. -/
def referenceStep (q : Sequencer) (target : Int) (up down : Nat) : Int × Nat × Bool :=
  if q.reference = target then (target, 0, q.rising)
  else
    let rising : Bool := q.reference < target
    let carried := if rising = q.rising then q.remainder else 0
    let sum := (if rising then up else down) + carried
    let step := sum / 1000
    if (target - q.reference).natAbs ≤ step then (target, 0, rising)
    else (if rising then q.reference + step else q.reference - step, sum % 1000, rising)

/-- Step 5: the speed loop (R102 to R104). -/
def speedLoop (p : Part) : Part :=
  let s := p.settings
  let target := if p.seq.group = .stopping then 0 else p.seq.setpoint
  let r := referenceStep p.seq target s.acceleration s.deceleration
  let e := saturate (r.1 - p.acq.driveSpeed)
  let candidate := clampTo (-s.capRegenerating) s.capMotoring
    (p.seq.integrator + roundedShift 16 (s.kis * e))
  let hold := (p.allot.groupLimited = 1 ∧ 0 < e) ∨ (p.allot.groupLimited = 2 ∧ e < 0)
  let integrator := if hold then p.seq.integrator else candidate
  let demand := clampTo (-s.capRegenerating) s.capMotoring (roundedShift 12 (s.kps * e) + integrator)
  p.setSeq { p.seq with
    reference := r.1, remainder := r.2.1, rising := r.2.2, integrator, demand }

/-- Whether the speed loop runs in a group state (R97). -/
def GroupState.loopRuns : GroupState → Bool
  | .starting | .running | .stopping => true
  | .idle | .tripped => false

/-- Step 6: an ordered stop is complete when the reference is 0 and the kiln is below standstill (R106). -/
def stopStep (p : Part) : Part :=
  if p.seq.group = .stopping ∧ p.seq.reference = 0 ∧
      (p.acq.driveSpeed.natAbs : Int) < p.settings.standstill then
    finishStop .ok (p.setSeq { p.seq.loopCleared with
      group := .idle
      motor := p.seq.motor.map (fun s => if s.state = .stopping then s.atRest .stopped else s) })
  else p

/-- Step 7 for a motor: RUNNING and STOPPING motors publish the flux current reference (R96, R32). -/
def MotorSeq.published (s : MotorSeq) (flux : Int) : MotorSeq :=
  match s.state with
  | .running | .stopping => { s with idRef := flux }
  | .stopped | .magnetizing | .tripped | .out => s

/-- Steps 5 to 7 of R98; a failed start is reported once they are done (R98, DEDUCED, log 17). -/
def sequencerLoop (failed : Bool) (p : Part) : Effect :=
  let p := if GroupState.loopRuns p.seq.group then speedLoop p else p
  let p := stopStep p
  { part := p.setSeq { p.seq with
      motor := p.seq.motor.map (fun s => s.published p.settings.fluxRef) }
    due := if failed then [Work.failedStart] else [] }

end Sys2Proof.Machine
end

