-- ==== Sys2Proof/Machine/Trips.lean ====
section
/-! DEFINITION. The trip unit (spec 09): conditions, latching, the trip event of R158 as ONE operation that
every report goes through, the rings, the record writer and clearing. -/

namespace Sys2Proof.Machine

/-! ## Values of other blocks that records and conditions read -/

/-- The thermal level h: H shifted right by 16 (R125). -/
def LimitRecord.thermalLevel (r : LimitRecord) : Nat := r.thermalH / 65536

/-- The limit in force for the direction of the frame (R124). -/
def Part.limitShown (p : Part) (m : Motor) : Int :=
  if p.allot.motoringFrame then (p.allot.motor.get m).motoring else (p.allot.motor.get m).regenerating

/-- A channel whose level counts in its group's level (R152). -/
def levelCounts : ChannelState → Bool
  | .normal | .alert | .danger => true
  | .disabled | .invalid => false

/-- The group level (R152). -/
def groupLevel (p : Part) (g : VibGroup) : Nat :=
  (g.members.filterMap (fun c =>
    let ch := p.vib.channel.get c
    if levelCounts ch.state then some ch.level else none)).foldl max 0

/-- The analog channel of a motor's phase a; phase b follows it (spec 03, "The scan"). -/
def phaseChannel : Motor → Nat
  | .a => 0
  | .b => 2

/-- The latest mark of an analog channel. -/
def Part.markOf (p : Part) (ch : Nat) : Mark := (p.acq.scan.getD ch Sample.zero).mark

/-- Whether the condition of a cause is present (R162, and the cause table of spec 09). OVERSPEED is as the
last frame event published it: then its run count is above 0 just when the drive speed was above the limit
in force (R57, R59). -/
def conditionPresent (p : Part) : Cause → Bool
  | .inverterFault m => (p.links.get m).status == .fault
  | .linkLost m => (p.links.get m).state != .up
  | .currentSensorLost m =>
    p.markOf (phaseChannel m) != .valid || p.markOf (phaseChannel m + 1) != .valid
  | .encoderLost m => !(p.acq.enc.get m).valid
  | .thermal m => p.settings.thermalStart ≤ (p.allot.motor.get m).thermalLevel
  | .speedMismatch => p.acq.mismatchPresent
  | .overspeed => p.acq.overspeedRun != 0
  | .vibDanger g => (p.vib.group.get g).state == .danger
  | .external => p.pins.tripIn
  | .overcurrent _ | .gearOverload | .failedStart | .halt => false

/-- The causes whose condition is present, as a set by cause number (R169). -/
def conditionBits (p : Part) : BitVec 32 :=
  (Cause.all.filter (conditionPresent p)).foldl (fun acc c => acc ||| (1#32 <<< c.number)) 0#32

/-! ## The record's contents -/

/-- A motor's context in a record header (spec 09, "Header layout"). -/
def motorContext (p : Part) (m : Motor) (base : Nat) : List (Nat × Word) :=
  let s := p.seq.motor.get m
  let c := p.ctl.get m
  let r := p.allot.motor.get m
  [(base + 0x00, wordOfNat s.state.code), (base + 0x02, wordOf s.idRef), (base + 0x04, wordOf r.iqRef),
   (base + 0x06, wordOf c.integD), (base + 0x08, wordOf c.integQ), (base + 0x0A, wordOfNat c.theta),
   (base + 0x0C, wordOfNat c.slip), (base + 0x0E, wordOfNat r.thermalLevel),
   (base + 0x10, wordOf r.motoring), (base + 0x12, wordOf r.regenerating),
   (base + 0x14, wordOfNat r.shown.code), (base + 0x16, wordOf r.torqueRef),
   (base + 0x18, wordOfNat (p.links.get m).state.code), (base + 0x1A, wordOf (p.acq.enc.get m).speed)]

/-- A vibration group's three words in a record header. -/
def groupContext (p : Part) (g : VibGroup) : List (Nat × Word) :=
  let w := p.vib.group.get g
  let o := 0x040 + 6 * g.number
  [(o, wordOfNat w.state.code), (o + 2, wordOfNat w.factor), (o + 4, wordOfNat (groupLevel p g))]

/-- The header of a record but for its state word (R169): the part `p` is as the trip event found it,
with the cause latched and numbered, before the sequencer acts (R158, step 3). -/
def recordHeader (c : Cause) (cls : TripClass) (p : Part) : List (Nat × Word) :=
  let s := p.settings
  let latched := latchedBits p.trip.latched
  let present := conditionBits p
  [(0x002, p.trip.sequence), (0x004, wordOfNat c.number), (0x006, wordOfNat cls.code),
   (0x008, p.acq.frameCount.extractLsb' 0 16), (0x00A, p.acq.frameCount.extractLsb' 16 16),
   (0x022, wordOfNat s.tag), (0x024, wordOfNat p.orders.applyCount),
   (0x026, wordOfNat s.preTrip), (0x028, wordOfNat s.postTrip),
   (0x030, latched.extractLsb' 0 16), (0x032, latched.extractLsb' 16 16),
   (0x034, wordOfNat p.seq.group.code), (0x036, wordOf p.seq.reference),
   (0x038, wordOf p.seq.integrator), (0x03A, wordOf p.seq.demand),
   (0x03C, wordOf p.acq.driveSpeed), (0x03E, wordOfBool p.acq.driveHeld)] ++
  VibGroup.all.flatMap (groupContext p) ++
  [(0x058, present.extractLsb' 0 16), (0x05A, present.extractLsb' 16 16)] ++
  motorContext p .a 0x060 ++ motorContext p .b 0x080

/-- The five words of a motor in a history entry (R165). -/
def HistoryMotor.words (h : HistoryMotor) : List Word :=
  [wordOfNat (h.state.code + 256 * h.shown.code), wordOf h.iqRef, wordOf h.iq, wordOf h.limit,
   wordOf h.speed]

/-- The sixteen words of a history entry (R165). -/
def HistoryEntry.words (h : HistoryEntry) : List Word :=
  [h.frame] ++ h.motor.a.words ++ h.motor.b.words ++ h.level.toList.map wordOfNat ++
  [wordOfNat (h.drive.code + 8 * h.vib.pinionA.code + 64 * h.vib.pinionB.code +
    512 * h.vib.gear.code + 4096 * h.vib.tyre.code)]

/-- The validity field of a fast entry: mark of channel k in bits 2k+1 and 2k (R166). -/
def markField : List Sample → Nat
  | [] => 0
  | s :: rest => s.mark.code + 4 * markField rest

/-- The eight words of a fast entry (R166). -/
def FastEntry.words (f : FastEntry) : List Word :=
  f.samples.map (fun s => wordOf s.value) ++
  [wordOfNat (markField f.samples), wordOfNat (f.period + 8 * (f.frame % 8192))]

/-- The history entry of this moment (R165). -/
def historyEntry (p : Part) : HistoryEntry :=
  let motor := fun m =>
    { state := p.motorState m, shown := (p.allot.motor.get m).shown
      iqRef := (p.allot.motor.get m).iqRef, iq := (p.ctl.get m).iq, limit := p.limitShown m
      speed := (p.acq.enc.get m).speed : HistoryMotor }
  { frame := p.acq.frameCount.extractLsb' 0 16
    motor := { a := motor .a, b := motor .b }
    level := PerGroup.ofFun (groupLevel p)
    drive := p.seq.group
    vib := p.vib.group.map (fun g => g.state) }

/-- An entry appended to a ring; when the ring is full it replaces the oldest (R165, R166). -/
def appendRing {α : Type} (capacity : Nat) (ring : List α) (x : α) : List α :=
  (ring ++ [x]).drop (ring.length + 1 - capacity)

/-! ## The record writer -/

/-- RECORD_CLOSE: the slot becomes READY, none is filling, RECORD is raised (R170). -/
def recordClose (p : Part) : Part :=
  match p.trip.filling with
  | none => p
  | some f =>
    let p := p.setMem (writeWord p.exch.mem (slotOffset f.slot) slotReady)
    let p := p.setTrip { p.trip with filling := none }
    raiseSource .record p

/-- A record opened in a slot (R168): state, header, fast snapshot, pre-trip entries; closed at once
when the sampled Q is 0. -/
def openRecord (s : SlotId) (header : List (Nat × Word)) (p : Part) : Part :=
  let base := slotOffset s
  let preTrip := p.settings.preTrip
  let postTrip := p.settings.postTrip
  let pre := p.trip.history.drop (p.trip.history.length - preTrip)
  let mem := writeWord p.exch.mem base slotFilling
  let mem := writeFields (zeroRange mem (base + 0x002) (base + 0x200)) base header
  let mem := zeroRange mem (base + 0x200) (base + 0x400)
  let mem := writeWords mem (base + 0x200) (p.trip.fast.flatMap FastEntry.words)
  let mem := writeWord mem (base + 0x02E) (wordOfNat p.trip.fast.length)
  let mem := writeWords mem (base + 0x400) (pre.flatMap HistoryEntry.words)
  let mem := writeWord mem (base + 0x02A) (wordOfNat pre.length)
  let filling : Filling :=
    { slot := s, preTrip, postTrip, preWritten := pre.length, postWritten := 0, listed := 0, more := 0
      frames := 0 }
  let p := (p.setMem mem).setTrip { p.trip with filling := some filling }
  if postTrip = 0 then recordClose p else p

/-- A follow-on of the record being filled (R171). The number of frames it carries is that of the trip unit's
frame events since the record was opened, also within one frame (DESIGN CHOICE, log 37). -/
def addFollowOn (f : Filling) (c : Cause) (cls : TripClass) (p : Part) : Part :=
  let base := slotOffset f.slot
  if f.listed < 4 then
    let entry := base + 0x010 + 4 * f.listed
    let mem := writeWords p.exch.mem entry
      [wordOfNat (c.number + 256 * cls.code), wordOfNat f.frames]
    let mem := writeWord mem (base + 0x00C) (wordOfNat (f.listed + 1))
    (p.setMem mem).setTrip { p.trip with filling := some { f with listed := f.listed + 1 } }
  else
    let more := countUp 255 f.more
    (p.setMem (writeWord p.exch.mem (base + 0x00E) (wordOfNat more))).setTrip
      { p.trip with filling := some { f with more } }

/-- The lowest slot whose state word reads FREE (R168). -/
def freeSlot (p : Part) : Option SlotId := SlotId.all.find? (fun s => slotState p s == slotFree)

/-- The event handed to the record writer (R168, R171, R172). -/
def recordTrip (c : Cause) (cls : TripClass) (header : List (Nat × Word)) (p : Part) : Part :=
  match p.trip.filling with
  | some f => addFollowOn f c cls p
  | none =>
    match freeSlot p with
    | some s => openRecord s header p
    | none => p.setTrip { p.trip with unrecorded := countUp 255 p.trip.unrecorded }

/-- The trip unit's frame work (R165, R170): the history entry, then its copy into the record. It counts as a frame
event since the trip also when the trip came earlier in this frame (R171; DESIGN CHOICE, log 37). -/
def tripFrame (p : Part) : Effect :=
  let entry := historyEntry p
  let p := p.setTrip
    { p.trip with history := appendRing Config.historyCapacity p.trip.history entry }
  match p.trip.filling with
  | none => .only p
  | some f =>
    let base := slotOffset f.slot
    let mem := writeWords p.exch.mem (base + 0x400 + 32 * (f.preWritten + f.postWritten)) entry.words
    let mem := writeWord mem (base + 0x02C) (wordOfNat (f.postWritten + 1))
    let f := { f with postWritten := f.postWritten + 1, frames := f.frames + 1 }
    { part := (p.setMem mem).setTrip { p.trip with filling := some f }
      due := if f.postWritten = f.postTrip then [Work.recordClose] else [] }

/-- The trip unit's work at a scan completion: one fast entry (R166). -/
def fastScan (p : Part) : Part :=
  p.setTrip { p.trip with
    fast := appendRing Config.fastCapacity p.trip.fast
      { samples := p.acq.scan.take 6, period := p.acq.period, frame := p.acq.frameCount.toNat % 8192 } }

/-! ## The trip event (R158) -/

/-- Steps 1 and 2: the cause into the set with its class, the sequence number up by one. -/
def latchCause (c : Cause) (cls : TripClass) (p : Part) : Part :=
  p.setTrip { p.trip with
    latched := latchInto { cause := c, cls } p.trip.latched
    sequence := p.trip.sequence + 1#16 }

/-- Step 4: the trip order of the cause's class (R159). -/
def tripOrder (c : Cause) (cls : TripClass) (p : Part) : Part :=
  match cls with
  | .inhibitAll => inhibitAllOrder p
  | .rampAll => rampAllOrder p
  | .inhibitOne =>
    match c.owner with
    | some m => inhibitOneOrder m p
    | none => p

/-- Whether a RUN in flight is aborted by a trip event: its cause is a group cause or belongs to a named
motor (R18), or the sequencer's response has put the group, or a motor that the RUN is bringing in, into
TRIPPED (R113). -/
def runAborted (r : RunEntry) (c : Cause) (before after : Part) : Bool :=
  (match c.owner with
    | none => true
    | some .a => r.named.a
    | some .b => r.named.b) ||
  (before.seq.group != .tripped && after.seq.group == .tripped) ||
  Motor.all.any (fun m => r.joining.get m &&
    before.motorState m != .tripped && after.motorState m == .tripped)

/-- Step 5: the RUN and the STOP in flight (R18, R19, R113). -/
def ordersAtTrip (c : Cause) (before p : Part) : Part :=
  let p := match p.orders.run with
    | some r => if runAborted r c before p then finishRun .abortedByTrip p else p
    | none => p
  finishStop .abortedByTrip p

/-- A trip event (R158), step by step. -/
def tripEvent (c : Cause) (cls : TripClass) (p : Part) : Part :=
  let p1 := latchCause c cls p
  let header := recordHeader c cls p1
  let p2 := tripOrder c cls p1
  let p3 := ordersAtTrip c p1 p2
  let p4 := recordTrip c cls header p3
  raiseSource .trip (startOnTrip p4)

/-- A report of a cause (R155): a trip event if the cause is not latched, else nothing. Its class is the
one of R156. -/
def report (c : Cause) (p : Part) : Part :=
  if isLatched p.trip.latched c then p else tripEvent c (p.settings.classOf c) p

/-! ## HALT and CLEAR_TRIP at the trip unit -/

/-- HALT handed over while it is latched with class RAMP_ALL, asking for INHIBIT (R160). -/
def raiseHalt (p : Part) : Part :=
  inhibitAllOrder (p.setTrip { p.trip with
    latched := latchInto { cause := .halt, cls := .inhibitAll } p.trip.latched })

/-- The scopes of CLEAR_TRIP (R163). -/
inductive ClearScope | motor (m : Motor) | groupCauses | every
deriving DecidableEq, Repr

def clearScope (w : Word) : Option ClearScope :=
  match w.toNat with
  | 1 => some (.motor .a)
  | 2 => some (.motor .b)
  | 3 => some .groupCauses
  | 4 => some .every
  | _ => none

/-- Whether a cause is in a scope (R163). -/
def ClearScope.contains (s : ClearScope) (c : Cause) : Bool :=
  match s with
  | .motor m => c.owner == some m
  | .groupCauses => c.owner == none
  | .every => true

/-- Every latched cause in scope whose condition is absent is removed (R163). -/
def clearLatched (s : ClearScope) (p : Part) : Part :=
  p.setTrip { p.trip with
    latched := p.trip.latched.filter (fun l => !(s.contains l.cause && !conditionPresent p l.cause)) }

/-- The causes in scope that are latched (R22). -/
def latchedInScope (s : ClearScope) (p : Part) : List Latched :=
  p.trip.latched.filter (fun l => s.contains l.cause)

end Sys2Proof.Machine
end

