-- ==== Sys2Proof/Machine/Acquisition.lean ====
section
/-! DEFINITION. The acquisition unit (spec 03): the timer, the scan and its overcurrent comparators, the
encoders, speeds and cross-checks. -/

namespace Sys2Proof.Machine

/-- Whether the phase is READY (R3). -/
def Part.isReady (p : Part) : Bool :=
  match p.phase with
  | .ready => true
  | .startingPowerOn | .startingPart _ => false

/-! ## Timer and scan -/

/-- The result of a conversion (R48, R49): within full scale VALID, beyond it INVALID_RANGE and held at
full scale, not finished INVALID_LATE and 0. -/
def convert (input : Option Int) : Sample :=
  match input with
  | none => { value := 0, mark := .invalidLate }
  | some x =>
    if x < -32767 then { value := -32767, mark := .invalidRange }
    else if 32767 < x then { value := 32767, mark := .invalidRange }
    else { value := x, mark := .valid }

/-- The motor whose comparator judges an analog channel (R50). -/
def comparatorOf (ch : Nat) : Option Motor :=
  if ch < 2 then some .a else if ch < 4 then some .b else none

/-- Whether a conversion of a phase channel reports OVERCURRENT (R50). -/
def overcurrent (threshold : Int) (s : Sample) : Bool :=
  match s.mark with
  | .valid => threshold ≤ s.value.natAbs
  | .invalidRange => true
  | .invalidLate => false

/-- CONVERSION_SLOT_END (R50): the slot under way ends with its result, judged at once by the comparator;
the end of slot 13 completes the scan (R48). -/
def conversionSlotEnd (input : Option Int) (p : Part) : Effect :=
  match p.acq.slot with
  | none => .only p
  | some ch =>
    let s := convert input
    let p := p.setAcq { p.acq with
      converted := p.acq.converted ++ [s]
      slot := if ch < 13 then some (ch + 1) else none }
    let p := match comparatorOf ch with
      | some m => if overcurrent p.orders.ratings.overcurrent s then report (.overcurrent m) p else p
      | none => p
    { part := p, due := if ch < 13 then [] else [Work.scanComplete] }

/-- The slots that have not ended when the period is over end late: every slot lies within its period and
the scan always completes before the next expiry (R48, R49; DESIGN CHOICE, log 12). -/
def endSlotsLate (p : Part) : Effect :=
  match p.acq.slot with
  | none => .only p
  | some ch =>
    { part := p.setAcq { p.acq with
        converted := p.acq.converted ++ List.replicate (14 - ch) (convert none), slot := none }
      due := [Work.scanComplete] }

/-- A link whose open reply window is closed at the timer's expiry (R82); its judgement is due. -/
def Link.windowClosed (l : Link) : Link :=
  { l with window := l.window.map (fun w => { w with closed := true }) }

/-- CONTROL_PERIOD_EXPIRY (R47): the period position advances and a scan starts; open reply windows close
(R82), so that their judgement is due, and position 4 is a frame event. -/
def periodExpiry (p : Part) : Effect :=
  let position := p.acq.period % 4 + 1
  { part := (p.setAcq { p.acq with period := position, slot := some 0, converted := [] }).setLinks
      (p.links.map Link.windowClosed)
    due := (Motor.all.filter (fun m => (p.links.get m).window.isSome)).map Work.replyWindowClose ++
      (if position = 4 then [Work.supervisionFrame] else []) }

/-- The default order of the hand-overs, and an order with every receiver in it once. -/
def ScanBlock.all : List ScanBlock := [.controlA, .controlB, .vibration, .capture, .fastRing]

/-- A list with no element twice, then the elements of `rest` it lacks. -/
def completeOrder {α : Type} [DecidableEq α] (order rest : List α) : List α :=
  (order ++ rest).foldl (fun acc x => if acc.contains x then acc else acc ++ [x]) []

/-- SCAN_COMPLETE (R48): the fourteen pairs replace the previous set as one and are handed on, in an
order the spec leaves open. -/
def scanComplete (order : List ScanBlock) (p : Part) : Effect :=
  { part := p.setAcq { p.acq with scan := p.acq.converted, converted := [] }
    due := (completeOrder order ScanBlock.all).map Work.scanTo }

/-! ## Encoders (R51, R52) -/

/-- Place of an encoder pair in the sequence (0,0), (0,1), (1,1), (1,0) (R51). -/
def pairPlace (p q : Bool) : Nat :=
  match p, q with
  | false, false => 0
  | false, true => 1
  | true, true => 2
  | true, false => 3

/-- ENCODER_TRANSITION (R51, R52): one step forward counts up, one step back counts down, two steps at
once make the encoder invalid; not judged while the line is broken or a reset is in progress. -/
def encoderTransition (m : Motor) (pNew qNew : Bool) (p : Part) : Effect :=
  let e := p.acq.enc.get m
  let moved := { e with p := pNew, q := qNew }
  let put := fun e : Encoder => p.setAcq { p.acq with enc := p.acq.enc.set m e }
  if e.lineBreak || !p.isReady then .only (put moved)
  else
    let legal := fun c : BitVec 32 =>
      let run := countUp 16 e.legalRun
      { part := put { moved with counter := c, legalRun := run }
        due := if run = 16 ∧ e.valid = false then [Work.encoderValidRegained m] else [] : Effect }
    match (pairPlace pNew qNew + 4 - pairPlace e.p e.q) % 4 with
    | 0 => .only p
    | 1 => legal (e.counter + 1#32)
    | 3 => legal (e.counter - 1#32)
    | _ => .only (put { moved with valid := false, legalRun := 0, disturbed := true })

/-- ENCODER_VALID_REGAINED (R52). -/
def encoderValidRegained (m : Motor) (p : Part) : Part :=
  p.setAcq { p.acq with enc := p.acq.enc.modify m (fun e => { e with valid := true }) }

/-- LINE_BREAK_ASSERTED (R52); during a reset only the line's level is kept (R61). -/
def lineBreakAsserted (m : Motor) (p : Part) : Part :=
  p.setAcq { p.acq with enc := p.acq.enc.modify m (fun e =>
    if p.isReady then { e with lineBreak := true, valid := false, legalRun := 0, disturbed := true }
    else { e with lineBreak := true }) }

/-- LINE_BREAK_RELEASED (R51): the pair as it stands is the reference for the next transition. -/
def lineBreakReleased (m : Motor) (p : Part) : Part :=
  p.setAcq { p.acq with enc := p.acq.enc.modify m (fun e => { e with lineBreak := false }) }

/-! ## The frame event: speeds and cross-checks -/

/-- The count of frames after one more: from 4294967295 it goes to 1 (R47). -/
def nextFrame (c : BitVec 32) : BitVec 32 := if c = 0xFFFFFFFF#32 then 1#32 else c + 1#32

/-- One motor's rings, speed and speed-invalid run count at a frame event (R53 to R55). -/
def Encoder.frame (e : Encoder) (kspd : Nat) (out : Bool) : Encoder :=
  let flag := e.disturbed || !e.valid
  let difference := (e.counter - e.snapshots.headD 0#32).toInt
  let flags := e.flags.drop 1 ++ [flag]
  let valid := !flags.any id
  { e with
    snapshots := e.snapshots.drop 1 ++ [e.counter]
    flags
    disturbed := !e.valid
    speed := if valid then saturate (roundedShift 16 (difference * kspd)) else e.speed
    speedValid := valid
    invalidRun := if out || valid then 0 else countUp 255 e.invalidRun }

/-- The drive speed and its held flag (R56). -/
def formDriveSpeed (a b : Encoder) (outA outB : Bool) (last : Int) : Int × Bool :=
  match !outA && a.speedValid, !outB && b.speedValid with
  | true, true => ((a.speed + b.speed).tdiv 2, false)
  | true, false => (a.speed, false)
  | false, true => (b.speed, false)
  | false, false => (last, true)

/-- The acquisition unit's frame work (R53 to R58). -/
def acquisitionFrame (p : Part) : Effect :=
  let s := p.settings
  let outA : Bool := p.motorState .a == .out
  let outB : Bool := p.motorState .b == .out
  let a := (p.acq.enc.get .a).frame p.orders.ratings.kspd outA
  let b := (p.acq.enc.get .b).frame p.orders.ratings.kspd outB
  let drive := formDriveSpeed a b outA outB p.acq.driveSpeed
  let overspeedRun := if s.overspeedLimit < drive.1.natAbs then countUp 255 p.acq.overspeedRun else 0
  let judged := !outA && !outB && a.speedValid && b.speedValid
  let mismatch := judged && decide (s.mismatchTolerance < (a.speed - b.speed).natAbs)
  let mismatchRun := if mismatch then countUp 255 p.acq.mismatchRun else 0
  let reportMismatch := mismatch && decide (s.mismatchPersistence ≤ mismatchRun) &&
    !p.acq.mismatchReported
  let acq := { p.acq with
    enc := { a, b }
    driveSpeed := drive.1
    driveHeld := drive.2
    overspeedRun
    mismatchRun
    mismatchReported := mismatch && (p.acq.mismatchReported || reportMismatch)
    mismatchPresent := if judged then mismatch else if outA || outB then false else p.acq.mismatchPresent
    published := true }
  { part := p.setAcq acq
    due := (if a.invalidRun = 8 then [Work.encoderLost .a] else []) ++
      (if b.invalidRun = 8 then [Work.encoderLost .b] else []) ++
      (if overspeedRun = 4 then [Work.overspeed] else []) ++
      (if reportMismatch then [Work.speedMismatch] else []) }

/-- A command to the test lines (R60): exactly the lines of `set` are driven. -/
def assertTestLines (set : PerAccel Bool) (p : Part) : Part :=
  p.setAcq { p.acq with
    testLines := Accel.all.foldl
      (fun acc c => if set.get c then acc ||| (1#8 <<< c.number) else acc) 0#8 }

end Sys2Proof.Machine
end

