-- ==== Sys2Proof/Machine/Links.lean ====
section
/-! DEFINITION. The modulator links (spec 05): the reference frame of each control period, the judgement of
its reply, the link states, LINK_TEST and LINK_RESET. -/

namespace Sys2Proof.Machine

/-- Link `m` replaced. -/
def Part.setLink (p : Part) (m : Motor) (l : Link) : Part := p.setLinks (p.links.set m l)

/-- The commands of a reference frame and their codes (spec 05, "Frames"). -/
inductive LinkCommand | sync | inhibit | enable
deriving DecidableEq, Repr

def LinkCommand.code : LinkCommand → Nat
  | .sync => 1 | .inhibit => 2 | .enable => 3

/-- The command chosen at the moment a frame is sent (R83); in DOWN no frame is sent. -/
def linkCommand (p : Part) (m : Motor) : LinkCommand :=
  match (p.links.get m).state with
  | .syncing => .sync
  | .lost | .down => .inhibit
  | .up =>
    if (p.motorState m).energized && !inhibitLatched p.trip.latched m then .enable else .inhibit

/-- The four words of a reference frame (R82, R84); the check word of a test frame is inverted (R92). -/
def referenceFrame (sequence : Nat) (cmd : LinkCommand) (vAlpha vBeta : Int) (test : Bool) : List Word :=
  let body := match cmd with
    | .enable => [wordOfNat (sequence + 16 * cmd.code), wordOf vAlpha, wordOf vBeta]
    | .sync | .inhibit => [wordOfNat (sequence + 16 * cmd.code), 0#16, 0#16]
  body ++ [if test then ~~~checkWord body else checkWord body]

/-- A reference frame sent on link `m` at a current control completion, opening its reply window (R82). -/
def sendFrame (m : Motor) (p : Part) : Part :=
  let l := p.links.get m
  match l.state with
  | .down => p
  | .syncing | .up | .lost =>
    let c := p.ctl.get m
    p.setLink m { l with
      sequence := (l.sequence + 1) % 16
      window := some { sequence := l.sequence, test := l.testPending, first := none, further := false, closed := false }
      testPending := false
      sent := referenceFrame l.sequence (linkCommand p m) c.vAlpha c.vBeta l.testPending }

/-- REPLY_RECEIVED (R85): the reply falls into the open window; with none open, or with the window closed and
not judged yet, it is discarded. -/
def replyReceived (m : Motor) (words : List Word) (p : Part) : Part :=
  let l := p.links.get m
  match l.window with
  | none => p
  | some w =>
    if w.closed then p
    else
      let w := match w.first with
        | none => { w with first := some words }
        | some _ => { w with further := true }
      p.setLink m { l with window := some w }

/-- The outcome of a reply window (R85); a good one carries the reply's status, fault code and
receive-error flag. -/
inductive ReplyOutcome
  | good (status : InverterStatus) (faultCode : Nat) (errorFlag : Bool)
  | bad
  | missing
deriving DecidableEq, Repr

/-- The status field of a reply's word 0: 3 names none. -/
def replyStatus (w : Word) : Option InverterStatus :=
  match (w.extractLsb' 4 2).toNat with
  | 0 => some .ready
  | 1 => some .notReady
  | 2 => some .fault
  | _ => none

/-- The judgement of R85. -/
def judgeReply (w : ReplyWindow) : ReplyOutcome :=
  match w.first with
  | none => .missing
  | some [word, check] =>
    match replyStatus word with
    | none => .bad
    | some status =>
      let flag := word.getLsbD 6
      if check = checkWord [word] ∧ (word.extractLsb' 0 4).toNat = w.sequence ∧
          word.getLsbD 7 = false ∧ (flag = false ∨ w.test = true) ∧ w.further = false then
        .good status (word.extractLsb' 8 8).toNat flag
      else .bad
  | some _ => .bad

def ReplyOutcome.isGood : ReplyOutcome → Bool
  | .good _ _ _ => true
  | .bad | .missing => false

/-- The LINK_TEST of a judged test frame is finished (R27, R92). -/
def finishTest (m : Motor) (o : ReplyOutcome) (p : Part) : Part :=
  match o with
  | .good status faultCode true =>
    finishLinkTest m .pass [0#16, wordOfNat status.code, wordOfNat faultCode] p
  | .good status faultCode false =>
    finishLinkTest m .fail [1#16, wordOfNat status.code, wordOfNat faultCode] p
  | .bad | .missing => finishLinkTest m .fail [2#16] p

/-- What a judged outcome makes of the link's own state (R86 to R88, R90). -/
def Link.judged (l : Link) (o : ReplyOutcome) : Link :=
  let l := { l with window := none }
  let l := match o with
    | .good status faultCode _ => { l with status, faultCode }
    | .bad | .missing => l
  match l.state with
  | .syncing =>
    { l with syncRun := match o with
        | .good .ready _ _ => countUp 16 l.syncRun
        | .good .notReady _ _ | .good .fault _ _ | .bad | .missing => 0 }
  | .up => { l with lossCount := if o.isGood then 0 else countUp 8 l.lossCount }
  | .down | .lost => l

/-- REPLY_WINDOW_CLOSE (R85): the window is judged, acts on the link (R86 to R90), reports
INVERTER_FAULT in UP (R89), finishes a test (R92), and brings about LINK_UP (R87) or LINK_LOST (R88). -/
def replyWindowClose (m : Motor) (p : Part) : Effect :=
  let l := p.links.get m
  match l.window with
  | none => .only p
  | some w =>
    let o := judgeReply w
    let j := l.judged o
    let p := p.setLink m j
    let p := match l.state, o with
      | .up, .good .fault _ _ => if p.motorState m = .out then p else report (.inverterFault m) p
      | _, _ => p
    let p := if w.test then finishTest m o p else p
    { part := p
      due := match l.state with
        | .syncing => if j.syncRun = 16 then [Work.linkUp m] else []
        | .up => if !o.isGood && decide (p.settings.linkTolerance ≤ j.lossCount) then [Work.linkLost m] else []
        | .down | .lost => [] }

/-- LINK_UP (R87). -/
def linkUp (m : Motor) (p : Part) : Part :=
  raiseSource .link (p.setLink m { p.links.get m with state := .up, lossCount := 0 })

/-- LINK_LOST (R88): the link goes to LOST, and unless the motor is OUT the cause is reported. -/
def linkLost (m : Motor) (p : Part) : Part :=
  let p := raiseSource .link (p.setLink m { p.links.get m with state := .lost })
  if p.motorState m = .out then p else report (.linkLost m) p

/-- LINK_TEST handed over (R92). -/
def linkTestHandOver (m : Motor) (p : Part) : Part :=
  p.setLink m { p.links.get m with testPending := true }

/-- LINK_RESET handed over (R93); LINK is raised from UP and from LOST. -/
def linkResetHandOver (m : Motor) (p : Part) : Part :=
  let l := p.links.get m
  let p := p.setLink m { l with
    state := .syncing, syncRun := 0, lossCount := 0, window := none, testPending := false }
  match l.state with
  | .up | .lost => raiseSource .link p
  | .down | .syncing => p

end Sys2Proof.Machine
end

