-- ==== Sys2Proof/Machine/CurrentControl.lean ====
section
/-! DEFINITION. Current control (spec 04): the samples, the angles, the regulator and the voltage limit of
one motor in one control period. -/

namespace Sys2Proof.Machine

/-! ## Samples (R66, R67) -/

/-- The channel that carries a motor's DC-link voltage (R66). -/
def udcChannel : Motor → Nat
  | .a => 4
  | .b => 5

/-- The held value after a result (R66). -/
def heldAfter (held : Int) (s : Sample) : Int := if s.mark = .valid then s.value else held

/-- The invalid-sample run count after a result; held at 0 while the motor is OUT (R67). -/
def runAfter (out : Bool) (run : Nat) (s : Sample) : Nat :=
  if out || s.mark == .valid then 0 else countUp 255 run

/-- Step 1 of R64 for motor `m`: held values and run counts; each phase channel whose count comes to 4
reports CURRENT_SENSOR_LOST (R64, R67). The spec leaves open whether step 2 of that period finds the motor
still RUNNING or TRIPPED; here the report is taken first (DESIGN CHOICE, log 32). -/
def controlSamples (m : Motor) (p : Part) : Effect :=
  let c := p.ctl.get m
  let sa := p.acq.scan.getD (phaseChannel m) Sample.zero
  let sb := p.acq.scan.getD (phaseChannel m + 1) Sample.zero
  let su := p.acq.scan.getD (udcChannel m) Sample.zero
  let out : Bool := p.motorState m == .out
  let c := { c with
    heldA := heldAfter c.heldA sa
    heldB := heldAfter c.heldB sb
    heldUdc := heldAfter c.heldUdc su
    runA := runAfter out c.runA sa
    runB := runAfter out c.runB sb }
  { part := p.setCtl (p.ctl.set m c)
    due := (if c.runA = 4 then [Work.currentSensorLost m] else []) ++
      (if c.runB = 4 then [Work.currentSensorLost m] else []) ++ [Work.controlCompute m] }

/-! ## Stages of the computation -/

/-- The rotor angle (R69). -/
def rotorAngle (counter : BitVec 32) (s : StartCopy) : Nat :=
  ((counter.toNat % s.countsPerRev * s.kang + 32768) / 65536) % 65536

/-- The slip angle after one period (R70). -/
def slipStep (slip : Nat) (idRef iqRef : Int) (s : StartCopy) : Nat :=
  (((slip : Int) + (iqRef * s.kslip).tdiv (max idRef 64)) % 65536).toNat

/-- The Clarke stage: iα and iβ (R72). -/
def clarke (ia ib : Int) : Int × Int := (ia, saturate (roundedShift 15 ((ia + 2 * ib) * 18919)))

/-- The Park stage: id and iq (R73). -/
def park (iAlpha iBeta s c : Int) : Int × Int :=
  (saturate (roundedShift 15 (iAlpha * c + iBeta * s)), saturate (roundedShift 15 (iBeta * c - iAlpha * s)))

/-- The voltage bound Vmax (R74). -/
def voltageBound (vlim : Nat) (udc : Int) : Int := roundedShift 15 (vlim * max 0 udc)

/-- The candidate integrator of an axis (R75). -/
def candidateIntegrator (ki : Nat) (e i vmax : Int) : Int :=
  clampTo (-vmax) vmax (saturate (i + roundedShift 16 (ki * e)))

/-- The inputs of the regulator of one motor in one period (R68). -/
structure RegulatorInputs where
  idRef : Int
  iqRef : Int
  id : Int
  iq : Int
  speed : Int
  udc : Int
  kp : Nat
  ki : Nat
  vlim : Nat
  kemf : Nat
deriving DecidableEq, Repr

/-- What the regulator and the voltage limit give (R74 to R78). -/
structure RegulatorOutputs where
  vd : Int
  vq : Int
  integD : Int
  integQ : Int
  limited : Nat
deriving DecidableEq, Repr

/-- Errors, PI terms, feedforward, voltage limit and anti-windup (R74 to R78). -/
def regulate (i : RegulatorInputs) (integD integQ : Int) : RegulatorOutputs :=
  let vmax := voltageBound i.vlim i.udc
  let ed := saturate (i.idRef - i.id)
  let eq := saturate (i.iqRef - i.iq)
  let candD := candidateIntegrator i.ki ed integD vmax
  let candQ := candidateIntegrator i.ki eq integQ vmax
  let ffq := saturate (roundedShift 12 (i.speed * i.kemf))
  let ud := saturate (roundedShift 12 (i.kp * ed) + candD)
  let uq := saturate (roundedShift 12 (i.kp * eq) + candQ + ffq)
  let vd := clampTo (-vmax) vmax ud
  let vqmax : Int := isqrt (vmax * vmax - vd * vd).toNat
  let vq := clampTo (-vqmax) vqmax uq
  let clampedD : Bool := vmax = 0 ∨ vd ≠ ud
  let clampedQ : Bool := vmax = 0 ∨ vq ≠ uq
  { vd, vq
    integD := if clampedD then integD else candD
    integQ := if clampedQ then integQ else candQ
    limited := (if clampedD then 1 else 0) + (if clampedQ then 2 else 0) }

/-- The inverse Park stage: vα and vβ (R79). -/
def inversePark (vd vq s c : Int) : Int × Int :=
  (saturate (roundedShift 15 (vd * c - vq * s)), saturate (roundedShift 15 (vd * s + vq * c)))

/-- The start copy, integrators and slip angle at a motor's energizing (R65). -/
def Control.energizing (c : Control) (r : Ratings) : Control :=
  if c.energized then c
  else
    { c with
      energized := true
      start := { countsPerRev := r.countsPerRev, kang := r.kang, kslip := r.kslip }
      integD := 0, integQ := 0, slip := 0 }

/-- The full computation of an energized motor (R69 to R79). -/
def computeEnergized (p : Part) (m : Motor) (c : Control) : Control :=
  let c := c.energizing p.orders.ratings
  let s := p.settings
  let idRef := (p.seq.motor.get m).idRef
  let iqRef := (p.allot.motor.get m).iqRef
  let slip := slipStep c.slip idRef iqRef c.start
  let theta := (rotorAngle (p.acq.enc.get m).counter c.start + slip) % 65536
  let ab := clarke c.heldA c.heldB
  let dq := park ab.1 ab.2 (sinOf theta) (cosOf theta)
  let r := regulate
    { idRef, iqRef, id := dq.1, iq := dq.2, speed := (p.acq.enc.get m).speed, udc := c.heldUdc
      kp := s.kp, ki := s.ki, vlim := s.vlim, kemf := s.kemf } c.integD c.integQ
  let v := inversePark r.vd r.vq (sinOf theta) (cosOf theta)
  { c with
    slip, theta, id := dq.1, iq := dq.2, vd := r.vd, vq := r.vq, integD := r.integD
    integQ := r.integQ, limited := r.limited, vAlpha := v.1, vBeta := v.2 }

/-- The resting path (R65). -/
def computeResting (p : Part) (m : Motor) (c : Control) : Control :=
  let theta := rotorAngle (p.acq.enc.get m).counter c.start % 65536
  let ab := clarke c.heldA c.heldB
  let dq := park ab.1 ab.2 (sinOf theta) (cosOf theta)
  { c with
    energized := false, slip := 0, theta, id := dq.1, iq := dq.2, vd := 0, vq := 0, integD := 0
    integQ := 0, limited := 0, vAlpha := 0, vBeta := 0 }

/-- Steps 2 to 5 of R64: the computation by the motor state read now, then the hand-over to the link. -/
def controlCompute (m : Motor) (p : Part) : Part :=
  let c := p.ctl.get m
  let c := if (p.motorState m).energized then computeEnergized p m c else computeResting p m c
  sendFrame m (p.setCtl (p.ctl.set m c))

end Sys2Proof.Machine
end

