-- ==== Sys2Proof/Machine/Allotment.lean ====
section
/-! DEFINITION. The torque allotment (spec 07): the frame of R118 step by step. -/

namespace Sys2Proof.Machine

/-! ## Step 1: the thermal model (R125) -/

/-- The heating input S of a motor (R125). -/
def heatingInput (state : MotorState) (id iq rated : Int) : Int :=
  if state.energized then min 65535 (((id * id + iq * iq) * 16384).tdiv (rated * rated)) else 0

/-- H after one frame: an arithmetic shift, not a rounded one (R125). -/
def thermalStep (h : Nat) (input : Int) (shift : Nat) : Nat :=
  (h + (input * 65536 - h) / 2 ^ shift).toNat

/-! ## Step 2: limit candidates (R119 to R124) -/

/-- A limit candidate with the source it names. -/
structure Candidate where
  value : Int
  source : LimitSource
deriving DecidableEq, Repr

/-- Whether the breakaway limit is the base limit's source (R120). -/
def breakawayNamed (s : Settings) (group : GroupState) : Bool :=
  group == .starting && decide (s.motoringLimit ≤ s.breakawayLimit)

/-- The base limit of the motoring direction (R120). -/
def baseMotoring (s : Settings) (group : GroupState) : Candidate :=
  { value := if group = .starting then max s.motoringLimit s.breakawayLimit else s.motoringLimit
    source := if breakawayNamed s group then .breakaway else .settings }

/-- The base limit of the regenerating direction; the source is named by the same rule (R120). -/
def baseRegenerating (s : Settings) (group : GroupState) : Candidate :=
  { value := s.regeneratingLimit, source := if breakawayNamed s group then .breakaway else .settings }

/-- The thermal candidate (R121): absent up to the derate-start level. -/
def thermalCandidate (s : Settings) (level : Nat) (base : Int) : List Candidate :=
  if level ≤ s.thermalStart then []
  else if s.thermalTrip ≤ level then [{ value := 0, source := .thermal }]
  else [{ value := (base * ((s.thermalTrip : Int) - level)).tdiv ((s.thermalTrip : Int) - s.thermalStart)
          source := .thermal }]

/-- The smallest factor in force among the groups that serve a motor (R122). -/
def smallestFactor (p : Part) (m : Motor) : Nat :=
  (m.groups.map (fun g => (p.vib.group.get g).factor)).foldl min 32767

/-- The vibration candidate (R122): absent at the factor 32767. -/
def vibrationCandidate (factor : Nat) (base : Int) : List Candidate :=
  if factor < 32767 then [{ value := roundedShift 15 (base * factor), source := .vibration }] else []

/-- The sequencer candidate (R123). -/
def sequencerCandidate (s : MotorSeq) : List Candidate :=
  match sequencerLimit s with
  | none => []
  | some (v, true) => [{ value := v, source := .trip }]
  | some (v, false) => [{ value := v, source := .sequencer }]

/-- The smallest candidate, the first named among equals (R119, R124). -/
def smallest (first : Candidate) (rest : List Candidate) : Candidate :=
  rest.foldl (fun best c => if c.value < best.value then c else best) first

/-- The limit in force of a direction: candidates in the order of R124, the gear cap last (R119). -/
def limitInForce (s : Settings) (m : MotorSeq) (level factor : Nat) (base : Candidate) (cap : Int) :
    Candidate :=
  match sequencerCandidate m ++ thermalCandidate s level base.value ++
      vibrationCandidate factor base.value with
  | [] => smallest base [{ value := cap, source := .gear }]
  | c :: rest => smallest c (rest ++ [base, { value := cap, source := .gear }])

/-! ## Step 3: dividing the demand (R127 to R129) -/

/-- A motor's part after the clamp to its limit, with the magnitude lost and the room left (R128). -/
structure Share where
  part : Int
  excess : Int
  room : Int
deriving DecidableEq, Repr

/-- A part clamped to a limit in force, its sign kept (R128). -/
def clampShare (part limit : Int) : Share :=
  let kept := clampTo (-limit) limit part
  { part := kept, excess := part.natAbs - kept.natAbs, room := limit - kept.natAbs }

/-- The two torque references and the remainder that found no room (R127 to R129). -/
structure Division where
  a : Int
  b : Int
  remainder : Int
deriving DecidableEq, Repr

/-- A clamped demand divided by share A, clamped, and each excess offered once to the other (R127, R128). -/
def divideDemand (d : Int) (shareA : Nat) (limitA limitB : Int) : Division :=
  let partA := roundedShift 8 (d * shareA)
  let a := clampShare partA limitA
  let b := clampShare (d - partA) limitB
  let toB := min a.excess b.room
  let toA := min b.excess a.room
  let sign : Int := if 0 ≤ d then 1 else -1
  { a := a.part + sign * toA, b := b.part + sign * toB
    remainder := (a.excess - toB) + (b.excess - toA) }

/-! ## Steps 4 and 5: references and estimates (R130, R131) -/

/-- The iq reference of a torque reference (R130). -/
def iqReference (r : Ratings) (torque : Int) : Int :=
  clampTo (-r.iqLimit) r.iqLimit (roundedShift 12 (torque * r.kti))

/-- The torque estimate of a measured iq (R131). -/
def torqueEstimate (r : Ratings) (iq : Int) : Int := saturate (roundedShift 12 (iq * r.kit))

/-! ## The frame (R118) -/

/-- One motor's record but for the torque reference (steps 1, 2 and 5). -/
def limitRecord (p : Part) (m : Motor) (motoringFrame : Bool) : LimitRecord :=
  let s := p.settings
  let c := p.ctl.get m
  let q := p.seq.motor.get m
  let old := p.allot.motor.get m
  let h := thermalStep old.thermalH (heatingInput q.state c.id c.iq p.orders.ratings.ratedCurrent)
    s.thermalShift
  let factor := smallestFactor p m
  let mot := limitInForce s q (h / 65536) factor (baseMotoring s p.seq.group) s.capMotoring
  let reg := limitInForce s q (h / 65536) factor (baseRegenerating s p.seq.group) s.capRegenerating
  { old with
    thermalH := h
    motoring := mot.value
    regenerating := reg.value
    motoringSource := mot.source
    regeneratingSource := reg.source
    shown := if motoringFrame then mot.source else reg.source
    estimate := torqueEstimate p.orders.ratings c.iq }

/-- A record completed with its torque reference (steps 3 and 4). -/
def LimitRecord.withTorque (r : LimitRecord) (ratings : Ratings) (torque : Int) : LimitRecord :=
  { r with torqueRef := torque, iqRef := iqReference ratings torque }

/-- The reports of THERMAL at step 6 (R126). -/
def reportThermal (m : Motor) (p : Part) : Part :=
  if p.motorState m ≠ .out ∧ p.settings.escalatesThermal ∧
      p.settings.thermalTrip ≤ (p.allot.motor.get m).thermalLevel then
    report (.thermal m) p
  else p

/-- The allotment frame (R118 to R133): the records, the division, the flag; LIMIT on a change of a
shown source or of the flag; THERMAL reports; a detected gear overload is due (R132). The spec leaves open in
which order reports of one frame reach the trip unit (R155); here THERMAL of A, THERMAL of B, then the gear
(DESIGN CHOICE, log 33). -/
def allotmentFrame (p : Part) : Effect :=
  let s := p.settings
  let d := clampTo (-s.capRegenerating) s.capMotoring p.seq.demand
  let motoringFrame : Bool := 0 ≤ d
  let ra := limitRecord p .a motoringFrame
  let rb := limitRecord p .b motoringFrame
  let limit := fun r : LimitRecord => if motoringFrame then r.motoring else r.regenerating
  let div := divideDemand d s.shareA (limit ra) (limit rb)
  let ra := ra.withTorque p.orders.ratings div.a
  let rb := rb.withTorque p.orders.ratings div.b
  let flag := if 0 < div.remainder then (if motoringFrame then 1 else 2) else 0
  let overload : Bool := s.gearTripLevel ≤ (ra.estimate + rb.estimate).natAbs
  let gearRun := if overload then countUp 255 p.allot.gearRun else 0
  let detected : Bool := overload && decide (s.gearPersistence ≤ gearRun) &&
    (if s.escalatesGear then !p.allot.gearReported else !p.allot.gearNoticed)
  let changed : Bool := ra.shown ≠ p.allot.motor.a.shown ∨ rb.shown ≠ p.allot.motor.b.shown ∨
    flag ≠ p.allot.groupLimited
  let p := p.setAllot
    { motor := { a := ra, b := rb }, motoringFrame, groupLimited := flag, gearRun
      gearReported := overload && p.allot.gearReported
      gearNoticed := overload && p.allot.gearNoticed
      limitRaised := changed
      published := true }
  let p := if changed then raiseSource .limit p else p
  { part := reportThermal .b (reportThermal .a p)
    due := if detected then [Work.gearOverload] else [] }

/-- GEAR_OVERLOAD (R132): reported once in a run when escalated, else noticed once by LIMIT, unless the frame
has raised LIMIT already (R133). -/
def gearOverload (p : Part) : Part :=
  if p.settings.escalatesGear then
    report .gearOverload (p.setAllot { p.allot with gearReported := true })
  else
    let p := p.setAllot { p.allot with gearNoticed := true }
    if p.allot.limitRaised then p else raiseSource .limit p

end Sys2Proof.Machine
end

