-- ==== Sys2Proof/Machine/Vibration.lean ====
section
/-! DEFINITION. The vibration watch (spec 08): samples, windows, channel and group states, holds and
factors, and the self-test. -/

namespace Sys2Proof.Machine

/-- Channel `c` replaced. -/
def Part.setChannel (p : Part) (c : Accel) (v : Channel) : Part :=
  p.setVib { p.vib with channel := p.vib.channel.set c v }

/-- Group `g` replaced. -/
def Part.setGroup (p : Part) (g : VibGroup) (v : GroupWatch) : Part :=
  p.setVib { p.vib with group := p.vib.group.set g v }

/-! ## An apply's changes, at the first sample after it (R37, R38) -/

/-- The open window and the runs cleared (R37, R148). -/
def Channel.windowCleared (c : Channel) : Channel :=
  { c with accumulator := 0, samples := 0, invalid := 0, alertRun := 0, dangerRun := 0 }

/-- The channel after the enable set and the window code in force are looked at. -/
def Channel.applied (c : Channel) (enabled windowChanged : Bool) : Channel :=
  match enabled, c.state with
  | false, .disabled => c
  | false, .normal | false, .alert | false, .danger | false, .invalid => Channel.cleared .disabled
  | true, .disabled => Channel.cleared .normal
  | true, .normal | true, .alert | true, .danger | true, .invalid =>
    if windowChanged then c.windowCleared else c

/-! ## Samples (R137, R138) -/

/-- The filter step: the sample's input, or the last input again for an invalid one (R137). -/
def Channel.filter (c : Channel) (highPass : Nat) (s : Sample) : Channel :=
  let x := if s.mark = .valid then s.value else c.xPrev
  { c with
    xPrev := x, yPrev := saturate (x - c.xPrev + roundedShift 15 (highPass * c.yPrev)) }

/-- A filtered sample counted into the open window (R137, R138). -/
def Channel.accumulate (c : Channel) (s : Sample) : Channel :=
  { c with
    accumulator := c.accumulator + (c.yPrev * c.yPrev).toNat
    samples := c.samples + 1
    invalid := if s.mark = .valid then c.invalid else c.invalid + 1 }

/-- The analog channel of a vibration channel (spec 08, "Channels and groups"). -/
def Accel.analog (c : Accel) : Nat := 6 + c.number

/-- A channel's work on a scan (R136): DISABLED channels do nothing; during a self-test the filter step
always, accumulation only while measuring and only in the test set (R149). -/
def channelScan (p : Part) (c : Accel) (ch : Channel) : Channel :=
  let s := p.acq.scan.getD (Accel.analog c) Sample.zero
  if ch.state = .disabled then ch
  else
    let f := ch.filter p.settings.highPass s
    match p.vib.test with
    | none => f.accumulate s
    | some t => if t.phase = .measuring ∧ t.set.get c = true then f.accumulate s else f

/-- What the end of one more scan completion brings about in a self-test (R149, R150). -/
def selftestDue (t : Selftest) (window : Nat) : List Work :=
  match t.phase with
  | .settling => if 64 ≤ t.count then [.selftestSettlingEnd] else []
  | .measuring => if window ≤ t.count then [.selftestMeasuringEnd] else []
  | .recovering => if 64 ≤ t.count then [.selftestEnd] else []

/-- The vibration watch's work at a scan completion (R136): an apply's changes, then every channel's
sample; the windows that are full end before the groups are formed. -/
def vibrationScan (p : Part) : Effect :=
  let s := p.settings
  let windowChanged : Bool := s.windowCode ≠ p.vib.windowCode
  let applied := PerAccel.ofFun (fun c => (p.vib.channel.get c).applied (s.enables c) windowChanged)
  let changed := Accel.all.any (fun c => (applied.get c).state != (p.vib.channel.get c).state)
  let channel := PerAccel.ofFun (fun c => channelScan p c (applied.get c))
  let test := p.vib.test.map (fun t => { t with count := t.count + 1 })
  let p := p.setVib { p.vib with channel, windowCode := s.windowCode, test }
  { part := if changed then raiseSource .vibration p else p
    due := match test with
      | some t => selftestDue t s.window
      | none =>
        (Accel.all.filter (fun c =>
          (channel.get c).state != .disabled && decide (s.window ≤ (channel.get c).samples))).map
            Work.windowEnd ++ [Work.vibrationGroups] }

/-! ## Window ends (R139 to R143) -/

/-- The speed band of a drive speed: how many band edges lie at or below it (R140). -/
def speedBand (edges : List Int) (speed : Int) : Nat := (edges.filter (fun e => e ≤ speed)).length

/-- The thresholds of a band and group (R140). -/
def Settings.thresholdsOf (s : Settings) (band : Nat) (g : VibGroup) : Thresholds :=
  match s.thresholds[band]? with
  | some t => t.get g
  | none => { alert := 0, danger := 0 }

/-- The new channel state of a valid window, from the runs as updated (R141). -/
def judgeState (old : ChannelState) (alertRun dangerRun level : Nat) (t : Thresholds) (margin : Nat)
    (alertPersistence dangerPersistence : Nat) : ChannelState :=
  let belowAlert : Bool := (level : Int) < (t.alert : Int) - margin
  let belowDanger : Bool := (level : Int) < (t.danger : Int) - margin
  if dangerPersistence ≤ dangerRun then .danger
  else
    match old with
    | .disabled | .normal | .invalid => if alertPersistence ≤ alertRun then .alert else .normal
    | .alert => if belowAlert then .normal else .alert
    | .danger => if belowDanger && belowAlert then .normal else if belowDanger then .alert else .danger

/-- A channel after its window's end: invalid (R142) or judged (R139, R141); a fresh window begins. -/
def Channel.windowEnded (c : Channel) (s : Settings) (g : VibGroup) (driveSpeed : Int) : Channel :=
  let fresh := { c with accumulator := 0, samples := 0, invalid := 0 }
  if s.window / 8 < c.invalid then { fresh with state := .invalid, alertRun := 0, dangerRun := 0 }
  else
    let level := isqrt (c.accumulator / s.window)
    let t := Settings.thresholdsOf s (speedBand s.edges driveSpeed) g
    let dangerRun := if t.danger ≤ level then countUp 15 c.dangerRun else 0
    let alertRun := if t.alert ≤ level then countUp 15 c.alertRun else 0
    { fresh with
      level, alertRun, dangerRun
      state := judgeState c.state alertRun dangerRun level t (s.groups.get g).margin
        s.alertPersistence s.dangerPersistence }

/-- WINDOW_END (R139): VIBRATION is raised if the channel's state changes (R143). -/
def windowEnd (c : Accel) (p : Part) : Part :=
  let old := p.vib.channel.get c
  let new := old.windowEnded p.settings c.group p.acq.driveSpeed
  let p := p.setChannel c new
  if new.state = old.state then p else raiseSource .vibration p

/-! ## Groups and holds (R144, R145, R147) -/

/-- The state of a group from the states of its channels (R144). -/
def formGroup (states : List ChannelState) : VibState :=
  let enabled := states.filter (fun s => s != .disabled)
  if enabled.isEmpty then .disabled
  else if enabled.all (fun s => s == .invalid) then .lost
  else if enabled.any (fun s => s == .danger) then .danger
  else if enabled.any (fun s => s == .alert) then .alert
  else .normal

/-- Severity ranks for the derate hold (R145). -/
def VibState.rank : VibState → Nat
  | .disabled | .normal => 0
  | .alert => 1
  | .lost => 2
  | .danger => 3

/-- The more severe of two states by rank. -/
def moreSevere (x y : VibState) : VibState := if VibState.rank x < VibState.rank y then y else x

/-- The hold after a group's state changes (R145). -/
def holdAfter (hold : Option Hold) (old new : VibState) (code : Nat) : Option Hold :=
  if VibState.rank new < VibState.rank old then
    if code = 0 then hold
    else
      some { held := match hold with
               | some h => moreSevere old h.held
               | none => old
             remaining := holdFrames code }
  else
    match hold with
    | some h => if VibState.rank h.held ≤ VibState.rank new then none else some h
    | none => none

/-- A group's state formed from its channels; a change acts on its hold, and entry into DANGER reports
its cause when its bit is escalated (R144, R145, R147). -/
def groupFormed (p : Part) (g : VibGroup) : Part :=
  let w := p.vib.group.get g
  let new := formGroup (g.members.map (fun c => (p.vib.channel.get c).state))
  if new = w.state then p
  else
    let hold := holdAfter w.hold w.state new (p.settings.groups.get g).holdCode
    let p := p.setGroup g { w with state := new, hold }
    if new = .danger ∧ p.settings.escalatesGroup g then report g.cause p else p

/-- The groups formed at the end of a scan's work (R144); the judgement is suspended during a self-test
(R148). The spec leaves open in which order two groups that change at one scan report (R147, R155); here
pinion A, pinion B, gear, tyre stations (DESIGN CHOICE, log 33). -/
def vibrationGroups (p : Part) : Part := VibGroup.all.foldl groupFormed p

/-! ## Frame work (R146) -/

/-- The factor of a group state (R146). -/
def factorOf (g : GroupParams) : VibState → Nat
  | .disabled | .normal => 32767
  | .alert => g.alertFactor
  | .danger => g.dangerFactor
  | .lost => g.lostFactor

/-- The factor in force of a group (R146). -/
def factorInForce (g : GroupParams) (w : GroupWatch) : Nat :=
  match w.hold with
  | none => factorOf g w.state
  | some h => min (factorOf g h.held) (factorOf g w.state)

/-- The running holds go down by one frame; those that come to 0 are due to end (R146). -/
def vibrationFrame (p : Part) : Effect :=
  let group := p.vib.group.map (fun w =>
    { w with hold := w.hold.map (fun h => { h with remaining := h.remaining - 1 }) })
  { part := p.setVib { p.vib with group }
    due := (VibGroup.all.filter (fun g => match (group.get g).hold with
        | some h => h.remaining == 0
        | none => false)).map Work.derateHoldExpiry ++ [Work.vibrationPublish] }

/-- DERATE_HOLD_EXPIRY (R146): the hold ends, and the factor is that of the group state. -/
def derateHoldExpiry (g : VibGroup) (p : Part) : Part :=
  let w := { p.vib.group.get g with hold := none }
  p.setGroup g { w with factor := factorInForce (p.settings.groups.get g) w }

/-- The factors in force, the holds' remaining times and the speed band published (R146). -/
def vibrationPublish (p : Part) : Part :=
  let s := p.settings
  p.setVib { p.vib with
    group := PerGroup.ofFun (fun g =>
      let w := p.vib.group.get g
      { w with
        factor := factorInForce (s.groups.get g) w
        holdShown := match w.hold with
          | some h => h.remaining
          | none => 0 })
    band := speedBand s.edges p.acq.driveSpeed
    published := true }

/-! ## Self-test (R148 to R150) -/

/-- The outcomes' codes in the cell's result values (R26). -/
def outcomeDisabled : Nat := 0
def outcomePass : Nat := 1
def outcomeFail : Nat := 2
def outcomeInvalid : Nat := 3

/-- VIB_SELFTEST handed over (R148): the test set is the enabled channels. -/
def startSelftest (p : Part) : Part :=
  let set := PerAccel.ofFun (fun c => p.settings.enables c)
  let p := p.setVib { p.vib with
    test := some
      { phase := .settling, count := 0, set, outcomes := PerAccel.ofFun (fun _ => outcomeDisabled) }
    channel := PerAccel.ofFun (fun c =>
      if set.get c then (p.vib.channel.get c).windowCleared else p.vib.channel.get c) }
  assertTestLines set p

/-- SELFTEST_SETTLING_END (R149): the measuring phase begins. -/
def selftestSettlingEnd (p : Part) : Part :=
  match p.vib.test with
  | none => p
  | some t => p.setVib { p.vib with test := some { t with phase := .measuring, count := 0 } }

/-- The outcome of a channel of the test set (R149). -/
def testOutcome (s : Settings) (c : Accel) (ch : Channel) : Nat :=
  if s.window / 8 < ch.invalid then outcomeInvalid
  else
    let level := isqrt (ch.accumulator / s.window)
    let range := s.selftest.get c
    if range.low ≤ level ∧ level ≤ range.high then outcomePass else outcomeFail

/-- SELFTEST_MEASURING_END (R149): outcomes, test lines released, recovering. -/
def selftestMeasuringEnd (p : Part) : Part :=
  match p.vib.test with
  | none => p
  | some t =>
    let outcomes := PerAccel.ofFun (fun c =>
      if t.set.get c then testOutcome p.settings c (p.vib.channel.get c) else outcomeDisabled)
    let channel := PerAccel.ofFun (fun c =>
      let ch := p.vib.channel.get c
      if t.set.get c then { ch with accumulator := 0, samples := 0, invalid := 0 } else ch)
    assertTestLines (PerAccel.ofFun (fun _ => false))
      (p.setVib { p.vib with
        channel, test := some { t with phase := .recovering, count := 0, outcomes } })

/-- SELFTEST_END (R150): idle, fresh windows, and the cell finished with the outcomes (R26). -/
def selftestEnd (p : Part) : Part :=
  match p.vib.test with
  | none => p
  | some t =>
    let channel := PerAccel.ofFun (fun c =>
      let ch := p.vib.channel.get c
      if t.set.get c then ch.windowCleared else ch)
    let p := p.setVib { p.vib with channel, test := none }
    let code := if t.outcomes.toList.any (fun o => o == outcomeFail) then ResultCode.fail else .pass
    finishSelftest code (t.outcomes.toList.map wordOfNat) p

end Sys2Proof.Machine
end

