-- ==== Sys2Proof/Machine/Exchange.lean ====
section
/-! DEFINITION. The host port (spec 01): the guard over the exchange memory, host reads, the live block and
the four registers. -/

namespace Sys2Proof.Machine

/-! ## The guard (R1, R2, R11, R173, R182) -/

/-- The guard's judgement of a write to an order cell (R11). -/
def guardCell (p : Part) (n : CellId) (stateWord : Bool) (value : Word) : Bool :=
  let state := cellState p n
  if state = cellEmpty then !stateWord || value == cellEmpty || value == cellPosted
  else if state = cellDone ∨ state = cellRefused then stateWord && value == cellEmpty
  else false

/-- The guard's judgement of a write to a trip-record slot: only FREE to the state word of a READY one
(R1, R173). -/
def guardSlot (p : Part) (s : SlotId) (stateWord : Bool) (value : Word) : Bool :=
  stateWord && value == slotFree && slotState p s == slotReady

/-- The order cell that holds an offset of the cell region. -/
def cellAt (off : Nat) : CellId := Fin.ofNat 16 ((off - Config.cellBase) / Config.cellBytes)

/-- The slot that holds an offset of the slot region. -/
def slotAt (off : Nat) : SlotId :=
  match (off - Config.slotBase) / Config.slotBytes with
  | 0 => .s0
  | 1 => .s1
  | 2 => .s2
  | _ => .s3

/-- Whether the guard accepts a host write at a byte offset (the table before R1). -/
def guardAccepts (p : Part) (off : Nat) (value : Word) : Bool :=
  if off < Config.cellBase then false
  else if off < Config.liveBase then
    guardCell p (cellAt off) ((off - Config.cellBase) % Config.cellBytes == 0) value
  else if off < Config.pageA then false
  else if off < Config.captureBase then true
  else if off < Config.captureEnd then !EngineId.all.any (fun e => (p.cap.get e).covers off)
  else guardSlot p (slotAt off) ((off - Config.slotBase) % Config.slotBytes == 0) value

/-- A write that the guard drops (R2). -/
def dropWrite (off : Nat) (p : Part) : Part :=
  raiseSource .guard (p.setExch { p.exch with
    guardCount := countUp 65535 p.exch.guardCount, guardedOffset := off })

/-- The byte offset of a word of exchange memory (00, "Exchange memory layout"). -/
def byteOffset (word : BitVec 16) : Nat := 2 * word.toNat

/-- HOST_WRITE (R1 to R3). -/
def hostWrite (word : BitVec 16) (value : Word) (p : Part) : Part :=
  if p.isReady then
    if guardAccepts p (byteOffset word) value then
      p.setMem (writeWord p.exch.mem (byteOffset word) value)
    else dropWrite (byteOffset word) p
  else p

/-- What a host read returns (R1, R3, R7 to R9). -/
def hostReadValue (target : ReadTarget) (p : Part) : Word :=
  match target with
  | .memory word => if p.isReady then readWord p.exch.mem (byteOffset word) else 0#16
  | .status => statusWord p
  | .attention => if p.isReady then p.attn.pending.zeroExtend 16 else 0#16
  | .routing => if p.isReady then p.attn.routing else 0#16
  | .control => 0#16

/-- HOST_READ (R1): the word read stands on the data bus, and nothing else changes. -/
def hostRead (target : ReadTarget) (p : Part) : Part :=
  p.setPins { p.pins with hostData := hostReadValue target p }

/-! ## The registers (R3, R7 to R9) -/

/-- ATTENTION_ACKNOWLEDGE (R8), ignored during STARTING (R3). -/
def attentionWrite (value : Word) (p : Part) : Part :=
  if p.isReady then p.setAttn (acknowledge value p.attn) else p

/-- ROUTING_WRITE (R9), ignored during STARTING (R3). -/
def routingWrite (value : Word) (p : Part) : Part :=
  if p.isReady then p.setAttn { p.attn with routing := routingStored value } else p

/-- A write to STATUS is ignored (R7). -/
def statusWrite (_value : Word) (p : Part) : Part := p

/-! ## The live block (R5) -/

/-- A content field of the live block: 0 until its block has published since the last reset (R5). -/
def shownOnce (published : Bool) (w : Word) : Word := if published then w else 0#16

/-- The motor section at an offset within the live block. -/
def liveMotor (p : Part) (m : Motor) (base : Nat) : List (Nat × Word) :=
  let e := p.acq.enc.get m
  let c := p.ctl.get m
  let r := p.allot.motor.get m
  let l := p.links.get m
  [(base + 0x00, wordOfNat (p.motorState m).code), (base + 0x02, wordOf e.speed),
   (base + 0x04, shownOnce p.acq.published (wordOfBool e.speedValid)),
   (base + 0x06, wordOf c.id), (base + 0x08, wordOf c.iq), (base + 0x0A, wordOf r.torqueRef),
   (base + 0x0C, wordOf r.estimate), (base + 0x0E, wordOf r.motoring),
   (base + 0x10, wordOf r.regenerating),
   (base + 0x12, shownOnce p.allot.published (wordOfNat r.shown.code)),
   (base + 0x14, shownOnce p.allot.published (wordOfNat r.thermalLevel)),
   (base + 0x16, wordOfNat l.state.code), (base + 0x18, wordOfNat l.lossCount),
   (base + 0x1A, wordOfNat c.limited)]

/-- One word for each element of a list, from an offset on. -/
def wordRun (base : Nat) : List Word → List (Nat × Word)
  | [] => []
  | w :: ws => (base, w) :: wordRun (base + 2) ws

/-- The vibration part of the live block. -/
def liveVibration (p : Part) : List (Nat × Word) :=
  let v := p.vib
  wordRun 0x60 (v.channel.toList.map (fun c => wordOfNat c.level)) ++
  wordRun 0x70 (v.channel.toList.map (fun c => wordOfNat c.state.code)) ++
  wordRun 0x80 (v.channel.toList.map (fun c => wordOfNat c.samples)) ++
  wordRun 0x90 (v.group.toList.map (fun g => wordOfNat (VibState.code g.state))) ++
  wordRun 0x98 (v.group.toList.map (fun g => shownOnce v.published (wordOfNat g.factor))) ++
  wordRun 0xA0 (v.group.toList.map (fun g => wordOfNat ((g.holdShown + 999) / 1000))) ++
  [(0xA8, wordOfNat v.band), (0xAA, wordOfBool v.test.isSome)]

/-- The slot currently filling, 0xFFFF for none (spec 01, 0x05C0). -/
def fillingWord (t : TripUnit) : Word :=
  match t.filling with
  | some f => wordOfNat f.slot.number
  | none => 0xFFFF#16

/-- The content fields of the live block by offset within it (spec 01, "Live block layout"). What a part reset
keeps of the trip unit, that is the sequence number, the unrecorded-trip count and the slot states, shows from
the first write on (DESIGN CHOICE, log 36). -/
def liveContent (p : Part) : List (Nat × Word) :=
  let q := p.seq
  [(0x04, wordOfNat (GroupState.code q.group)), (0x06, wordOfNat p.allot.groupLimited),
   (0x08, wordOf q.setpoint), (0x0A, wordOf q.reference), (0x0C, wordOf q.demand),
   (0x0E, wordOf p.acq.driveSpeed), (0x10, wordOfBool p.acq.driveHeld),
   (0x12, wordOfNat p.orders.activePage), (0x14, wordOfNat p.settings.tag),
   (0x16, wordOfNat p.orders.applyCount), (0x18, wordOfBool p.orders.ratingsApplied)] ++
  liveMotor p .a 0x20 ++ liveMotor p .b 0x40 ++ liveVibration p ++
  wordRun 0xB0 (wordsOf32 (latchedBits p.trip.latched)) ++
  [(0xB4, p.trip.sequence), (0xB6, wordOfNat p.trip.unrecorded)] ++
  wordRun 0xB8 (SlotId.all.map (slotState p)) ++
  [(0xC0, fillingWord p.trip),
   (0xC2, wordOfNat (EngineState.code p.cap.e0.state)), (0xC4, wordOfNat p.cap.e0.remaining),
   (0xC6, wordOfNat (EngineState.code p.cap.e1.state)), (0xC8, wordOfNat p.cap.e1.remaining)] ++
  wordRun 0xCA (wordsOf32 p.orders.taken) ++
  [(0xCE, wordOfNat p.exch.guardCount)] ++
  wordRun 0xD0 (wordsOf32 (BitVec.ofNat 32 p.exch.guardedOffset))

/-- The live block write (R5): OPEN, every content field, CLOSE; the words without a name are 0. -/
def liveBlockWrite (p : Part) : Part :=
  let count := wordsOf32 p.acq.frameCount
  let mem := writeWords p.exch.mem Config.liveBase count
  let mem := zeroRange mem (Config.liveBase + 0x04) Config.pageA
  let mem := writeFields mem Config.liveBase (liveContent p)
  p.setMem (writeWords mem (Config.liveBase + 0xD4) count)

end Sys2Proof.Machine
end

