-- ==== Sys2Proof/Machine/Orders.lean ====
section
/-! DEFINITION. The order unit (spec 01, R12 to R28; spec 02, R29 to R33, R44): the taking of a cell, the
checks of each kind in their order, and what an accepted order does. -/

namespace Sys2Proof.Machine

/-- A cell is taken (R12, R13): one more order, and the taken frame written first. -/
def takeCell (n : CellId) (p : Part) : Part :=
  (p.setOrders { p.orders with taken := p.orders.taken + 1#32 }).setMem
    (writeWords p.exch.mem (cellOffset n + 0x06) (wordsOf32 p.acq.frameCount))

/-- A refused order has no effect beyond its own cell, the count and ORDER (R13). -/
def refuse (n : CellId) (code : ResultCode) (p : Part) : Part := finishCell n code [] p

/-- UNKNOWN_KIND (R15). -/
def orderUnknown (n : CellId) (p : Part) : Part := refuse n .unknownKind (takeCell n p)

/-! ## APPLY_SETTINGS and APPLY_RATINGS -/

/-- The page an argument names: its number and its offset (R16). -/
def pageArgument (w : Word) : Option (Nat × Nat) :=
  match w.toNat with
  | 1 => some (1, Config.pageA)
  | 2 => some (2, Config.pageB)
  | _ => none

/-- The apply count after one more apply: from 65535 it goes to 1 (R31). -/
def nextApply (n : Nat) : Nat := if n = 65535 then 1 else n + 1

/-- OK, or APPLIED_WITH_CLAMPS when a field was clamped (R16, R17). -/
def appliedCode (v : Validation) : ResultCode :=
  if v.clamps.isEmpty then .ok else .appliedWithClamps

/-- The count and the first offset of the clamped fields (R16, R17). -/
def clampValues (v : Validation) : List Word :=
  [wordOfNat v.clamps.length, wordOfNat (v.clamps.headD 0)]

/-- The clamped copy becomes the active settings (R31), and lowers a setpoint above the new maximum
(R33). -/
def adoptSettings (page : Nat) (s : Settings) (p : Part) : Part :=
  (p.setOrders { p.orders with
    settings := s, settingsApplied := true, activePage := page
    applyCount := nextApply p.orders.applyCount }).setSeq
      { p.seq with setpoint := min p.seq.setpoint s.maxSpeed }

/-- APPLY_SETTINGS (R16, R29 to R31, R33). -/
def orderApplySettings (n : CellId) (p : Part) : Part :=
  let p := takeCell n p
  match pageArgument (cellArg p n 0) with
  | none => refuse n .badArgument p
  | some (page, base) =>
    if p.orders.selftest.isSome then refuse n .busy p
    else
      let v := validatePage (readWords p.exch.mem base Config.pageWords)
      match lowest v.fails with
      | some off => finishCell n .badSettings [wordOfNat off] p
      | none =>
        let s := Settings.ofWords v.copy
        let p := adoptSettings page s p
        finishCell n (appliedCode v)
          (clampValues v ++ [wordOfNat s.tag, wordOfNat p.orders.applyCount]) p

/-- APPLY_RATINGS (R17, R44). -/
def orderApplyRatings (n : CellId) (p : Part) : Part :=
  let p := takeCell n p
  if p.seq.group ≠ .idle ∨ p.orders.run.isSome then refuse n .notIdle p
  else
    let v := validateRatings (readWords p.exch.mem Config.ratingsBase Config.ratingsWords)
    match lowest v.fails with
    | some off => finishCell n .badSettings [wordOfNat off] p
    | none =>
      finishCell n (appliedCode v) (clampValues v)
        (p.setOrders { p.orders with ratings := Ratings.ofWords v.copy, ratingsApplied := true })

/-! ## RUN, STOP, HALT, SET_SPEED, CLEAR_TRIP -/

/-- Whether some motor of a set has a property. -/
def anyNamed (set : PerMotor Bool) (f : Motor → Bool) : Bool := Motor.all.any (fun m => set.get m && f m)

/-- The checks of R18 in their order: the code of the first that fails. -/
def runRefusal (set : PerMotor Bool) (p : Part) : Option ResultCode :=
  if p.orders.run.isSome ∨ p.orders.stop.isSome ∨ p.orders.selftest.isSome then some .busy
  else if p.orders.settingsApplied = false then some .noSettings
  else if p.orders.ratingsApplied = false then some .noRatings
  else if groupCauseLatched p.trip.latched ∨ anyNamed set (motorCauseLatched p.trip.latched) then
    some .tripLatched
  else if p.seq.group ≠ .idle ∧ p.seq.group ≠ .running then some .notIdle
  else if anyNamed set (fun m => p.motorState m == .out) then some .motorOut
  else if anyNamed set (fun m => (p.links.get m).state != .up) then some .linkNotUp
  else if p.seq.group = .idle ∧ (set.a && set.b) = false ∧ p.settings.singleAllowed = false then
    some .badArgument
  else if p.seq.group = .idle ∧ anyNamed set (fun m => p.motorState m != .stopped) then some .notIdle
  else if p.seq.group = .running ∧
      anyNamed set (fun m => p.motorState m != .stopped && p.motorState m != .running) then
    some .notIdle
  else none

/-- The motors of an accepted RUN that are brought in: those named that are STOPPED (R18). -/
def joiningOf (set : PerMotor Bool) (p : Part) : PerMotor Bool :=
  { a := set.a && p.motorState .a == .stopped, b := set.b && p.motorState .b == .stopped }

/-- RUN (R18, R99, R113). -/
def orderRun (n : CellId) (p : Part) : Part :=
  let p := takeCell n p
  match motorSetArgument (cellArg p n 0) with
  | none => refuse n .badArgument p
  | some set =>
    match runRefusal set p with
    | some code => refuse n code p
    | none =>
      if p.seq.group = .running ∧ allRunning set p.seq then finishCell n .already [] p
      else
        let joining := joiningOf set p
        let p := setTaken n (beginMagnetizing joining p)
        p.setOrders { p.orders with run := some { cell := n, named := set, joining } }

/-- STOP (R19, R106). -/
def orderStop (n : CellId) (p : Part) : Part :=
  let p := takeCell n p
  if p.orders.stop.isSome ∨ (p.orders.run.isNone ∧
      (p.seq.group = .idle ∨ p.seq.group = .stopping ∨ p.seq.group = .tripped)) then
    finishCell n .already [] p
  else
    let (p, complete) := stopHandOver (finishRun .superseded p)
    let p := setTaken n p
    let p := p.setOrders { p.orders with stop := some n }
    if complete then finishStop .ok p else p

/-- The class an argument of HALT asks for (R20). -/
def haltMethod (w : Word) : Option TripClass :=
  match w.toNat with
  | 1 => some .inhibitAll
  | 2 => some .rampAll
  | _ => none

/-- HALT (R20, R160). -/
def orderHalt (n : CellId) (p : Part) : Part :=
  let p := takeCell n p
  match haltMethod (cellArg p n 0) with
  | none => refuse n .badArgument p
  | some cls =>
    let p := finishRun .superseded p
    match latchedClass p.trip.latched .halt with
    | none => finishCell n .ok [wordOfNat cls.code] (tripEvent .halt cls p)
    | some old =>
      if old = .rampAll ∧ cls = .inhibitAll then finishCell n .ok [wordOfNat cls.code] (raiseHalt p)
      else finishCell n .already [wordOfNat old.code] p

/-- SET_SPEED (R21). -/
def orderSetSpeed (n : CellId) (p : Part) : Part :=
  let p := takeCell n p
  if p.orders.settingsApplied = false then refuse n .noSettings p
  else
    let asked := (cellArg p n 0).toInt
    let stored := if asked < 0 then 0 else min asked p.settings.maxSpeed
    finishCell n (if stored = asked then .ok else .clamped) [wordOf stored]
      (p.setSeq { p.seq with setpoint := stored })

/-- CLEAR_TRIP (R22, R163). -/
def orderClearTrip (n : CellId) (p : Part) : Part :=
  let p := takeCell n p
  match clearScope (cellArg p n 0) with
  | none => refuse n .badArgument p
  | some scope =>
    let p := clearLatched scope p
    let left := latchedInScope scope p
    finishCell n (if left.isEmpty then .ok else .stillPresent) (wordsOf32 (latchedBits left)) p

/-! ## MOTOR_OUT, MOTOR_IN -/

/-- MOTOR_OUT (R23, R114). -/
def orderMotorOut (n : CellId) (p : Part) : Part :=
  let p := takeCell n p
  match motorArgument (cellArg p n 0) with
  | none => refuse n .badArgument p
  | some m =>
    if p.motorState m = .out then finishCell n .already [] p
    else if (p.seq.group ≠ .idle ∧ p.seq.group ≠ .tripped) ∨
        (p.motorState m ≠ .stopped ∧ p.motorState m ≠ .tripped) then refuse n .notIdle p
    else finishCell n .ok [] (motorOutHandOver m p)

/-- MOTOR_IN (R23, R114). -/
def orderMotorIn (n : CellId) (p : Part) : Part :=
  let p := takeCell n p
  match motorArgument (cellArg p n 0) with
  | none => refuse n .badArgument p
  | some m =>
    if p.motorState m ≠ .out then finishCell n .already [] p
    else if p.seq.group ≠ .idle then refuse n .notIdle p
    else if motorCauseLatched p.trip.latched m then refuse n .tripLatched p
    else finishCell n .ok [] (motorInHandOver m p)

/-! ## CAPTURE, CAPTURE_CANCEL -/

/-- A CAPTURE as its arguments give it (R24). -/
structure CaptureRequest where
  engine : EngineId
  channel : Nat
  blocks : Nat
  base : Nat
  limit : Nat
  start : StartCondition
deriving DecidableEq, Repr

/-- The start condition an argument names (R24). -/
def startArgument (w : Word) : Option StartCondition :=
  match w.toNat with
  | 1 => some .immediate
  | 2 => some .onTrip
  | 3 => some .afterOther
  | _ => none

/-- The arguments of a CAPTURE, or none when a value lies outside those listed (R24). -/
def captureRequest (p : Part) (n : CellId) : Option CaptureRequest :=
  let channel := (cellArg p n 1).toNat
  let blocks := (cellArg p n 2).toNat
  match engineArgument (cellArg p n 0), startArgument (cellArg p n 7) with
  | some engine, some start =>
    if channel ≤ 13 ∧ 1 ≤ blocks ∧ blocks ≤ 96 then
      some { engine, channel, blocks, base := nat32 (cellArg p n 3) (cellArg p n 4)
             limit := nat32 (cellArg p n 5) (cellArg p n 6), start }
    else none
  | _, _ => none

/-- The last byte of a request's region (R24). -/
def CaptureRequest.last (r : CaptureRequest) : Nat := r.base + r.blocks * 512 - 1

/-- The checks of R24 in their order: the code of the first that fails. -/
def captureRefusal (r : CaptureRequest) (p : Part) : Option ResultCode :=
  let other := p.cap.get r.engine.other
  if (p.cap.get r.engine).state ≠ .idle then some .busy
  else if r.base % 512 ≠ 0 ∨ r.base < Config.captureBase ∨ Config.captureEnd ≤ r.base ∨
      r.limit < r.last ∨ Config.captureEnd ≤ r.last then some .badRegion
  else if other.guards ∧ r.base < other.regionEnd ∧ other.base ≤ r.last then some .overlap
  else if r.start = .afterOther ∧ (other.state = .idle ∨ other.waits) then some .nothingToFollow
  else none

/-- CAPTURE (R24, R177). -/
def orderCapture (n : CellId) (p : Part) : Part :=
  let p := takeCell n p
  match captureRequest p n with
  | none => refuse n .badArgument p
  | some r =>
    match captureRefusal r p with
    | some code => refuse n code p
    | none =>
      let p := setTaken n (startCapture r.engine r.channel r.base r.blocks r.start p)
      p.setOrders { p.orders with capture := p.orders.capture.set r.engine (some n) }

/-- CAPTURE_CANCEL (R25, R184). -/
def orderCaptureCancel (n : CellId) (p : Part) : Part :=
  let p := takeCell n p
  match engineArgument (cellArg p n 0) with
  | none => refuse n .badArgument p
  | some e =>
    if (p.cap.get e).state = .idle then finishCell n .already [] p
    else finishCell n .ok [wordOfNat (p.cap.get e).written] (cancelCapture e p)

/-! ## VIB_SELFTEST, LINK_TEST, LINK_RESET -/

/-- VIB_SELFTEST (R26, R148). -/
def orderVibSelftest (n : CellId) (p : Part) : Part :=
  let p := takeCell n p
  if p.orders.selftest.isSome ∨ p.orders.run.isSome then refuse n .busy p
  else if p.orders.settingsApplied = false then refuse n .noSettings p
  else if p.seq.group ≠ .idle then refuse n .notIdle p
  else
    let p := setTaken n (startSelftest p)
    p.setOrders { p.orders with selftest := some n }

/-- LINK_TEST (R27, R92). -/
def orderLinkTest (n : CellId) (p : Part) : Part :=
  let p := takeCell n p
  match motorArgument (cellArg p n 0) with
  | none => refuse n .badArgument p
  | some m =>
    if (p.links.get m).state ≠ .up then refuse n .linkNotUp p
    else if (p.orders.linkTest.get m).isSome then refuse n .busy p
    else
      let p := setTaken n (linkTestHandOver m p)
      p.setOrders { p.orders with linkTest := p.orders.linkTest.set m (some n) }

/-- LINK_RESET (R28, R93). -/
def orderLinkReset (n : CellId) (p : Part) : Part :=
  let p := takeCell n p
  match motorArgument (cellArg p n 0) with
  | none => refuse n .badArgument p
  | some m =>
    if p.motorState m ≠ .stopped ∧ p.motorState m ≠ .tripped ∧ p.motorState m ≠ .out then
      refuse n .notIdle p
    else finishCell n .ok [] (finishLinkTest m .cancelled [3#16] (linkResetHandOver m p))

/-- The taking of a cell whose kind is `kind`. -/
def takeOrder (kind : OrderKind) (n : CellId) (p : Part) : Part :=
  match kind with
  | .unknown => orderUnknown n p
  | .applySettings => orderApplySettings n p
  | .applyRatings => orderApplyRatings n p
  | .run => orderRun n p
  | .stop => orderStop n p
  | .halt => orderHalt n p
  | .setSpeed => orderSetSpeed n p
  | .clearTrip => orderClearTrip n p
  | .motorOut => orderMotorOut n p
  | .motorIn => orderMotorIn n p
  | .capture => orderCapture n p
  | .captureCancel => orderCaptureCancel n p
  | .vibSelftest => orderVibSelftest n p
  | .linkTest => orderLinkTest n p
  | .linkReset => orderLinkReset n p

end Sys2Proof.Machine
end

