-- ==== Sys2Proof/Machine/Resets.lean ====
section
/-! DEFINITION. Power-on reset, part reset and the end of either (spec 01, R3, R10; the reset rules of every
chapter: R42, R46, R61, R81, R94, R117, R135, R153, R174, R175, R186). -/

namespace Sys2Proof.Machine

/-- An encoder brought to its reset values, its input lines as they stand (R61). -/
def Encoder.restarted (e : Encoder) : Encoder := Encoder.atReset e.p e.q e.lineBreak

/-- POWER_ON_RESET (R3): every block in its reset state, the memory zeroed and the identity block written;
the levels of the input lines and what stands on the data bus are not the part's to change. It starts
afresh in whichever phase the part is. -/
def powerOnReset (p : Part) : Part :=
  { phase := .startingPowerOn
    pins := { p.pins with resetAsserted := true }
    exch := { mem := Memory.atPowerOn, guardCount := 0, guardedOffset := 0 }
    attn := Attention.atReset
    orders := OrderUnit.atReset
    acq := Acquisition.atReset (p.acq.enc.map Encoder.restarted)
    ctl := PerMotor.both Control.atReset
    links := PerMotor.both (Link.atReset .down)
    seq := Sequencer.atReset
    allot := Allotment.atReset (PerMotor.both 0)
    vib := Vibration.atReset
    trip := TripUnit.atReset 0#16 0
    cap := { e0 := Engine.atReset, e1 := Engine.atReset } }

/-- A FILLING slot closed at the start of a part reset: truncated, then READY (R174). -/
def closeTruncated (filling : Option Filling) (mem : Memory) : Memory :=
  match filling with
  | none => mem
  | some f =>
    writeWord (writeWord mem (slotOffset f.slot + 0x020) 1#16) (slotOffset f.slot) slotReady

/-- The start of a part reset (R10): the order cells and the live block zeroed, every other region kept word
for word but for the closing of a FILLING slot; H, the trip sequence number and the unrecorded-trip count
are kept (R135, R174). -/
def partReset (p : Part) : Part :=
  { phase := .startingPart p.trip.filling.isSome
    pins := p.pins
    exch :=
      { mem := zeroRange (closeTruncated p.trip.filling p.exch.mem) Config.cellBase Config.pageA
        guardCount := 0, guardedOffset := 0 }
    attn := Attention.atReset
    orders := OrderUnit.atReset
    acq := Acquisition.atReset (p.acq.enc.map Encoder.restarted)
    ctl := PerMotor.both Control.atReset
    links := PerMotor.both (Link.atReset .down)
    seq := Sequencer.atReset
    allot := Allotment.atReset (p.allot.motor.map (fun r => r.thermalH))
    vib := Vibration.atReset
    trip := TripUnit.atReset p.trip.sequence p.trip.unrecorded
    cap := { e0 := Engine.atReset, e1 := Engine.atReset } }

/-- Whether a write to CONTROL starts a part reset (R10). -/
def requestsReset (value : Word) (p : Part) : Bool := p.isReady && value == Config.partResetValue

/-- The encoder's validity at the end of a reset (R52), carried into the first interval (R53). -/
def Encoder.atResetEnd (e : Encoder) : Encoder :=
  { e with
    valid := !e.lineBreak, legalRun := if e.lineBreak then 0 else 16, disturbed := e.lineBreak }

/-- The phase becomes READY: the links go to SYNCING (R94), the encoders' validity is set (R52), RECORD is
raised when a part reset closed a record (R10), and an asserted TRIP_IN latches EXTERNAL (R161). The spec gives
these one moment and no order; here EXTERNAL comes last (DESIGN CHOICE, log 38). -/
def becomeReady (recordClosed : Bool) (p : Part) : Part :=
  let p := ((p.setPhase .ready).setPins { p.pins with resetAsserted := false }).setLinks
    (p.links.map (fun l => { l with state := .syncing }))
  let p := p.setAcq { p.acq with enc := p.acq.enc.map Encoder.atResetEnd }
  let p := if recordClosed then raiseSource .record p else p
  if p.pins.tripIn then report .external p else p

/-- RESET_END (R3): it acts while the phase is STARTING. -/
def resetEnd (p : Part) : Part :=
  match p.phase with
  | .ready => p
  | .startingPowerOn => becomeReady false p
  | .startingPart closed => becomeReady closed p

/-! ## The TRIP_IN line (R161) -/

/-- TRIP_IN_ASSERTED: EXTERNAL is latched at once while the phase is READY. -/
def tripInAsserted (p : Part) : Part :=
  let p := p.setPins { p.pins with tripIn := true }
  if p.isReady then report .external p else p

/-- TRIP_IN_RELEASED: the condition of EXTERNAL is absent from now on. -/
def tripInReleased (p : Part) : Part := p.setPins { p.pins with tripIn := false }

end Sys2Proof.Machine
end

