-- ==== Sys2Proof/Machine/Agenda.lean ====
section
/-! DEFINITION. The work that is due (log 2): what each piece of it does, and the three ways in which it is
taken up: up to the next row of the table, up to a named row, or all of it. -/

namespace Sys2Proof.Machine

/-- The default order of the blocks' frame work, every block in it once. -/
def FrameBlock.all : List FrameBlock :=
  [.acquisition, .vibration, .sequencer, .allotment, .trip, .orders, .live]

/-- SUPERVISION_FRAME (R47): the frame count first, then the frame work of every block, in an order the spec
leaves open (R59, R98, R118, R165). -/
def frameEvent (order : List FrameBlock) (p : Part) : Effect :=
  { part := p.setAcq { p.acq with frameCount := nextFrame p.acq.frameCount }
    due := (completeOrder order FrameBlock.all).map Work.frameOf }

/-- Every order cell, in ascending index. -/
def CellId.all : List CellId := [0, 1, 2, 3, 4, 5, 6, 7, 8, 9, 10, 11, 12, 13, 14, 15]

/-- The frame work of one block. -/
def blockFrame (b : FrameBlock) (p : Part) : Effect :=
  match b with
  | .acquisition => acquisitionFrame p
  | .vibration => vibrationFrame p
  | .sequencer => sequencerFrame p
  | .allotment => allotmentFrame p
  | .trip => tripFrame p
  | .orders => { part := p, due := CellId.all.map Work.scanCell }
  | .live => .only (liveBlockWrite p)

/-- The order unit reads one cell's state word, once (R12): a POSTED cell is taken. -/
def scanCell (n : CellId) (p : Part) : Effect :=
  if cellState p n = cellPosted then { part := p, due := [Work.order (orderKind (cellKind p n)) n] }
  else .only p

/-- A receiver's work on a scan's results (R48). -/
def blockScan (b : ScanBlock) (p : Part) : Effect :=
  match b with
  | .controlA => controlSamples .a p
  | .controlB => controlSamples .b p
  | .vibration => vibrationScan p
  | .capture => captureScan p
  | .fastRing => .only (fastScan p)

/-- What one piece of due work does, with the work that it brings about in turn. -/
def runWork (w : Work) (p : Part) : Effect :=
  match w with
  | .supervisionFrame => frameEvent FrameBlock.all p
  | .scanComplete => scanComplete ScanBlock.all p
  | .replyWindowClose m => replyWindowClose m p
  | .currentSensorLost m => .only (report (.currentSensorLost m) p)
  | .windowEnd c => .only (windowEnd c p)
  | .captureBlockWrite e => captureBlockWrite e p
  | .captureComplete e => .only (captureComplete e p)
  | .selftestSettlingEnd => .only (selftestSettlingEnd p)
  | .selftestMeasuringEnd => .only (selftestMeasuringEnd p)
  | .selftestEnd => .only (selftestEnd p)
  | .encoderValidRegained m => .only (encoderValidRegained m p)
  | .encoderLost m => .only (report (.encoderLost m) p)
  | .overspeed => .only (report .overspeed p)
  | .speedMismatch => .only (report .speedMismatch p)
  | .order kind cell => .only (takeOrder kind cell p)
  | .linkUp m => .only (linkUp m p)
  | .linkLost m => .only (linkLost m p)
  | .recordClose => .only (recordClose p)
  | .tripRampEnd m => .only (tripRampEnd m p)
  | .magnetizingRampFinished => .only (magnetizingRampFinished p)
  | .failedStart => .only (report .failedStart p)
  | .gearOverload => .only (gearOverload p)
  | .derateHoldExpiry g => .only (derateHoldExpiry g p)
  | .frameOf b => blockFrame b p
  | .sequencerStart => sequencerStart p
  | .sequencerLoop failed => sequencerLoop failed p
  | .scanCell n => scanCell n p
  | .vibrationPublish => .only (vibrationPublish p)
  | .scanTo b => blockScan b p
  | .controlCompute m => .only (controlCompute m p)
  | .vibrationGroups => .only (vibrationGroups p)

/-- Whether a piece of work is a row of the table of operations and events. -/
def Work.isRow : Work → Bool
  | .frameOf _ | .sequencerStart | .sequencerLoop _ | .scanCell _ | .vibrationPublish | .scanTo _
  | .controlCompute _ | .vibrationGroups => false
  | .supervisionFrame | .scanComplete | .replyWindowClose _ | .currentSensorLost _ | .windowEnd _
  | .captureBlockWrite _ | .captureComplete _ | .selftestSettlingEnd | .selftestMeasuringEnd
  | .selftestEnd | .encoderValidRegained _ | .encoderLost _ | .overspeed | .speedMismatch
  | .order _ _ | .linkUp _ | .linkLost _ | .recordClose | .tripRampEnd _ | .magnetizingRampFinished
  | .failedStart | .gearOverload | .derateHoldExpiry _ => true

/-- Whether a piece of work begins a block's event; the other pieces complete one that has begun, and a
block takes its event whole (R98, R158, R184). -/
def Work.begins : Work → Bool
  | .supervisionFrame | .scanComplete | .replyWindowClose _ | .order _ _ | .frameOf _ | .scanCell _
  | .scanTo _ => true
  | .currentSensorLost _ | .windowEnd _ | .captureBlockWrite _ | .captureComplete _
  | .selftestSettlingEnd | .selftestMeasuringEnd | .selftestEnd | .encoderValidRegained _
  | .encoderLost _ | .overspeed | .speedMismatch | .linkUp _ | .linkLost _ | .recordClose
  | .tripRampEnd _ | .magnetizingRampFinished | .failedStart | .gearOverload | .derateHoldExpiry _
  | .sequencerStart | .sequencerLoop _ | .vibrationPublish | .controlCompute _
  | .vibrationGroups => false

/-- How many pieces of work one piece can come to, itself counted: work that it brings about always counts
less than it does. -/
def Work.weight : Work → Nat
  | .supervisionFrame => 57
  | .scanComplete => 25
  | .replyWindowClose _ | .captureBlockWrite _ => 2
  | .frameOf .acquisition => 5
  | .frameOf .vibration => 6
  | .frameOf .sequencer => 7
  | .frameOf .allotment | .frameOf .trip => 2
  | .frameOf .orders => 33
  | .frameOf .live => 1
  | .sequencerStart => 4
  | .sequencerLoop _ | .scanCell _ => 2
  | .scanTo .controlA | .scanTo .controlB => 4
  | .scanTo .vibration => 10
  | .scanTo .capture => 5
  | .scanTo .fastRing => 1
  | .vibrationPublish | .controlCompute _ | .vibrationGroups => 1
  | .currentSensorLost _ | .windowEnd _ | .captureComplete _ | .selftestSettlingEnd
  | .selftestMeasuringEnd | .selftestEnd | .encoderValidRegained _ | .encoderLost _ | .overspeed
  | .speedMismatch | .order _ _ | .linkUp _ | .linkLost _ | .recordClose | .tripRampEnd _
  | .magnetizingRampFinished | .failedStart | .gearOverload | .derateHoldExpiry _ => 1

/-- The bound on the pieces of work an agenda can come to. -/
def agendaWeight (a : List Work) : Nat := (a.map Work.weight).sum

/-- The first piece of work done, and what it brings about put in front of the rest. -/
def runFirst (w : Work) (rest : List Work) (s : State) : State :=
  let e := runWork w s.part
  { s with agenda := e.due ++ rest, part := e.part }

/-- Work done from the front until the agenda meets `done`, at most `fuel` pieces. -/
def runUntil (done : List Work → Bool) : Nat → State → State
  | 0, s => s
  | k + 1, s =>
    if done s.agenda then s
    else
      match s.agenda with
      | [] => s
      | w :: rest => runUntil done k (runFirst w rest s)

/-- Whether the agenda stands before a row of the table, or is empty. -/
def beforeRow : List Work → Bool
  | [] => true
  | w :: _ => w.isRow

/-- The rows that stand at the front with row `w`: all begin an event, or all complete one. -/
def frontRows (w : Work) (a : List Work) : List Work :=
  a.takeWhile (fun x => x.isRow && x.begins == w.begins)

/-- Whether a row is among those that stand at the front, or the agenda is empty. -/
def rowAtFront (w : Work) (a : List Work) : Bool := a.isEmpty || (frontRows w a).contains w

/-- Whether no event that has begun is still to be completed. -/
def betweenEvents : List Work → Bool
  | [] => true
  | w :: _ => w.begins

/-- The stretches of a block's work that stand before the next row are done: they belong to the row that
went before. -/
def drain (s : State) : State := runUntil beforeRow (agendaWeight s.agenda) s

/-- Work is done until row `w` is among those at the front. -/
def reach (w : Work) (s : State) : State := runUntil (rowAtFront w) (agendaWeight s.agenda) s

/-- An event that has begun is completed. -/
def finishEvent (s : State) : State := runUntil betweenEvents (agendaWeight s.agenda) s

/-- An event that has begun is completed as a part reset finds it: the close of a record that is due, but has not
come about, comes no more, since the slot is FILLING when the reset is requested (R10, R174). -/
def finishForReset (s : State) : State :=
  finishEvent { s with agenda := s.agenda.filter (fun w => w != .recordClose) }

/-- Whether the events of the timer's expiry are over (the closes of reply windows, the frame event) and no
block event that has begun is still to be completed. The blocks' frame work may go on. -/
def expiryOver (a : List Work) : Bool :=
  betweenEvents a && a.all (fun w => match w with
    | .replyWindowClose _ | .supervisionFrame => false
    | .scanComplete | .currentSensorLost _ | .windowEnd _ | .captureBlockWrite _ | .captureComplete _
    | .selftestSettlingEnd | .selftestMeasuringEnd | .selftestEnd | .encoderValidRegained _
    | .encoderLost _ | .overspeed | .speedMismatch | .order _ _ | .linkUp _ | .linkLost _
    | .recordClose | .tripRampEnd _ | .magnetizingRampFinished | .failedStart | .gearOverload
    | .derateHoldExpiry _ | .frameOf _ | .sequencerStart | .sequencerLoop _ | .scanCell _
    | .vibrationPublish | .scanTo _ | .controlCompute _ | .vibrationGroups => true)

/-- The expiry that started the period's slots is over. -/
def finishExpiry (s : State) : State := runUntil expiryOver (agendaWeight s.agenda) s

/-- All due work is done. -/
def settle (s : State) : State := runUntil List.isEmpty (agendaWeight s.agenda) s

/-! ## How a command acts -/

/-- A command that acts at once and brings nothing about. -/
def actOn (f : Part → Part) (s : State) : Host.Outcome State Fault Refusal :=
  .next { s with part := f s.part }

/-- A command that acts at once; the rows that it brings about come before what was due already. -/
def actWith (f : Part → Effect) (s : State) : Host.Outcome State Fault Refusal :=
  let e := f s.part
  .next { s with agenda := e.due ++ s.agenda, part := e.part }

/-- Row `w` comes about with the effect `f`: what is due before it is done first; where it is not due, it
does not come about (log 2). Rows that stand at the front together come in whichever order they are sent
(log 16). -/
def occurWith (w : Work) (f : Part → Effect) (s : State) : Host.Outcome State Fault Refusal :=
  let s := reach w s
  if s.agenda.contains w then
    let e := f s.part
    .next (drain { s with agenda := e.due ++ s.agenda.erase w, part := e.part })
  else .next s

/-- Row `w` comes about with its own effect. -/
def occur (w : Work) (s : State) : Host.Outcome State Fault Refusal := occurWith w (runWork w) s

end Sys2Proof.Machine
end

