-- ==== Sys2Proof/Machine/Commands.lean ====
section
/-! DEFINITION. The meaning of every command, one definition each, over the operations of the blocks. -/

namespace Sys2Proof.Machine

/-- POWER_ON_RESET. The RESET line is asserted: a power-on reset starts, in any phase; no work of before it is left (R3). -/
def execPowerOnReset (s : State) : Host.Outcome State Fault Refusal :=
  .next { s with agenda := [], part := Machine.powerOnReset s.part }

/-- RESET_END. The reset ends (R3); in READY there is none to end. The command stands for RESET released and every
block's reset work done (DESIGN CHOICE, log 11). -/
def execResetEnd (s : State) : Host.Outcome State Fault Refusal :=
  actOn Machine.resetEnd s

/-- PART_RESET_REQUEST. A write to CONTROL (R10): the reset starts at once. An event that has begun is finished (R174, R186: a
trip event and a block write are taken whole); work that has not begun is dropped, posted orders with it. A slot
that is FILLING when the reset is requested is closed by it, also when its close was due. -/
def execPartResetRequest (value : Word) (s : State) : Host.Outcome State Fault Refusal :=
  if requestsReset value s.part then
    .next { s with agenda := [], part := partReset (finishForReset s).part }
  else .next s

/-- ATTENTION_ACKNOWLEDGE. A write to ATTENTION (R8). -/
def execAttentionAcknowledge (value : Word) (s : State) : Host.Outcome State Fault Refusal :=
  actOn (attentionWrite value) s

/-- ROUTING_WRITE. A write to ROUTING (R9). -/
def execRoutingWrite (value : Word) (s : State) : Host.Outcome State Fault Refusal :=
  actOn (Machine.routingWrite value) s

/-- REGISTER_WRITE_IGNORED. A write to STATUS (R7). -/
def execRegisterWriteIgnored (value : Word) (s : State) : Host.Outcome State Fault Refusal :=
  actOn (statusWrite value) s

/-- HOST_WRITE. A write to exchange memory (R1, R2, R3). -/
def execHostWrite (word : BitVec 16) (value : Word) (s : State) : Host.Outcome State Fault Refusal :=
  actOn (Machine.hostWrite word value) s

/-- HOST_READ. A read of exchange memory or of a register (R1, R3, R7). -/
def execHostRead (target : ReadTarget) (s : State) : Host.Outcome State Fault Refusal :=
  actOn (Machine.hostRead target) s

/-- CONTROL_PERIOD_EXPIRY. The timer expires (R47); it does not run during STARTING. The work of the period before is complete by
then (R48, R64, R179), and slots that have not ended were late (log 12). -/
def execControlPeriodExpiry (s : State) : Host.Outcome State Fault Refusal :=
  if s.part.isReady then
    let s := settle s
    let e := endSlotsLate s.part
    actWith periodExpiry (settle { s with agenda := e.due, part := e.part })
  else .next s

/-- SUPERVISION_FRAME. The frame event (R47), the blocks in the order given. -/
def execSupervisionFrame (order : List FrameBlock) (s : State) : Host.Outcome State Fault Refusal :=
  occurWith .supervisionFrame (frameEvent order) s

/-- CONVERSION_SLOT_END. The conversion slot under way ends (R50). The window closes and the frame event of its expiry came
before it; frame work that has not begun by then may follow it (R178; log 4). -/
def execConversionSlotEnd (input : Option Int) (s : State) : Host.Outcome State Fault Refusal :=
  actWith (Machine.conversionSlotEnd input) (finishExpiry s)

/-- SCAN_COMPLETE. The scan is complete (R48), the receivers in the order given. -/
def execScanComplete (order : List ScanBlock) (s : State) : Host.Outcome State Fault Refusal :=
  occurWith .scanComplete (Machine.scanComplete order) s

/-- CURRENT_SENSOR_LOST. A phase channel of `m` brings its invalid-sample run count to 4 (R67). -/
def execCurrentSensorLost (m : Motor) (s : State) : Host.Outcome State Fault Refusal :=
  occur (.currentSensorLost m) s

/-- WINDOW_END. The window of channel `c` ends (R139). -/
def execWindowEnd (c : Accel) (s : State) : Host.Outcome State Fault Refusal :=
  occur (.windowEnd c) s

/-- CAPTURE_BLOCK_WRITE. Engine `e` writes its full block (R179). -/
def execCaptureBlockWrite (e : EngineId) (s : State) : Host.Outcome State Fault Refusal :=
  occur (.captureBlockWrite e) s

/-- CAPTURE_COMPLETE. The capture of engine `e` is complete (R183). -/
def execCaptureComplete (e : EngineId) (s : State) : Host.Outcome State Fault Refusal :=
  occur (.captureComplete e) s

/-- SELFTEST_SETTLING_END. The settling phase ends (R149). -/
def execSelftestSettlingEnd (s : State) : Host.Outcome State Fault Refusal :=
  occur .selftestSettlingEnd s

/-- SELFTEST_MEASURING_END. The measuring phase ends (R149). -/
def execSelftestMeasuringEnd (s : State) : Host.Outcome State Fault Refusal :=
  occur .selftestMeasuringEnd s

/-- SELFTEST_END. The self-test ends (R150). -/
def execSelftestEnd (s : State) : Host.Outcome State Fault Refusal :=
  occur .selftestEnd s

/-- ENCODER_TRANSITION. The encoder pair of `m` changes (R51). -/
def execEncoderTransition (m : Motor) (p : Bool) (q : Bool) (s : State) : Host.Outcome State Fault Refusal :=
  actWith (Machine.encoderTransition m p q) (finishEvent s)

/-- ENCODER_VALID_REGAINED. The sixteenth legal transition makes the encoder valid again (R52). -/
def execEncoderValidRegained (m : Motor) (s : State) : Host.Outcome State Fault Refusal :=
  occur (.encoderValidRegained m) s

/-- LINE_BREAK_ASSERTED. The line-break input of `m` is asserted (R52). -/
def execLineBreakAsserted (m : Motor) (s : State) : Host.Outcome State Fault Refusal :=
  actOn (Machine.lineBreakAsserted m) (finishEvent s)

/-- LINE_BREAK_RELEASED. The line-break input of `m` is released (R51). -/
def execLineBreakReleased (m : Motor) (s : State) : Host.Outcome State Fault Refusal :=
  actOn (Machine.lineBreakReleased m) s

/-- ENCODER_LOST. The speed of `m` has been invalid for 8 frames (R55). -/
def execEncoderLost (m : Motor) (s : State) : Host.Outcome State Fault Refusal :=
  occur (.encoderLost m) s

/-- OVERSPEED. The overspeed run count comes to 4 (R57). -/
def execOverspeed (s : State) : Host.Outcome State Fault Refusal :=
  occur .overspeed s

/-- SPEED_MISMATCH. A mismatch run comes to its persistence (R58). -/
def execSpeedMismatch (s : State) : Host.Outcome State Fault Refusal :=
  occur .speedMismatch s

/-- UNKNOWN_KIND. A cell of an unknown kind is taken (R15). -/
def execUnknownKind (cell : CellId) (s : State) : Host.Outcome State Fault Refusal :=
  occur (.order .unknown cell) s

/-- APPLY_SETTINGS. APPLY_SETTINGS is taken (R16, R29 to R33). -/
def execApplySettings (cell : CellId) (s : State) : Host.Outcome State Fault Refusal :=
  occur (.order .applySettings cell) s

/-- APPLY_RATINGS. APPLY_RATINGS is taken (R17, R44). -/
def execApplyRatings (cell : CellId) (s : State) : Host.Outcome State Fault Refusal :=
  occur (.order .applyRatings cell) s

/-- RUN. RUN is taken (R18, R99, R113). -/
def execRun (cell : CellId) (s : State) : Host.Outcome State Fault Refusal :=
  occur (.order .run cell) s

/-- STOP. STOP is taken (R19, R106). -/
def execStop (cell : CellId) (s : State) : Host.Outcome State Fault Refusal :=
  occur (.order .stop cell) s

/-- HALT. HALT is taken (R20, R160). -/
def execHalt (cell : CellId) (s : State) : Host.Outcome State Fault Refusal :=
  occur (.order .halt cell) s

/-- SET_SPEED. SET_SPEED is taken (R21). -/
def execSetSpeed (cell : CellId) (s : State) : Host.Outcome State Fault Refusal :=
  occur (.order .setSpeed cell) s

/-- CLEAR_TRIP. CLEAR_TRIP is taken (R22, R163). -/
def execClearTrip (cell : CellId) (s : State) : Host.Outcome State Fault Refusal :=
  occur (.order .clearTrip cell) s

/-- MOTOR_OUT. MOTOR_OUT is taken (R23, R114). -/
def execMotorOut (cell : CellId) (s : State) : Host.Outcome State Fault Refusal :=
  occur (.order .motorOut cell) s

/-- MOTOR_IN. MOTOR_IN is taken (R23, R114). -/
def execMotorIn (cell : CellId) (s : State) : Host.Outcome State Fault Refusal :=
  occur (.order .motorIn cell) s

/-- CAPTURE. CAPTURE is taken (R24, R177). -/
def execCapture (cell : CellId) (s : State) : Host.Outcome State Fault Refusal :=
  occur (.order .capture cell) s

/-- CAPTURE_CANCEL. CAPTURE_CANCEL is taken (R25, R184). -/
def execCaptureCancel (cell : CellId) (s : State) : Host.Outcome State Fault Refusal :=
  occur (.order .captureCancel cell) s

/-- VIB_SELFTEST. VIB_SELFTEST is taken (R26, R148). -/
def execVibSelftest (cell : CellId) (s : State) : Host.Outcome State Fault Refusal :=
  occur (.order .vibSelftest cell) s

/-- LINK_TEST. LINK_TEST is taken (R27, R92). -/
def execLinkTest (cell : CellId) (s : State) : Host.Outcome State Fault Refusal :=
  occur (.order .linkTest cell) s

/-- LINK_RESET. LINK_RESET is taken (R28, R93). -/
def execLinkReset (cell : CellId) (s : State) : Host.Outcome State Fault Refusal :=
  occur (.order .linkReset cell) s

/-- REPLY_RECEIVED. A reply arrives on link `m` (R85). -/
def execReplyReceived (m : Motor) (words : List Word) (s : State) : Host.Outcome State Fault Refusal :=
  actOn (Machine.replyReceived m words) s

/-- REPLY_WINDOW_CLOSE. The reply window of link `m` closes (R82, R85 to R92). -/
def execReplyWindowClose (m : Motor) (s : State) : Host.Outcome State Fault Refusal :=
  occur (.replyWindowClose m) s

/-- LINK_UP. Link `m` comes up (R87). -/
def execLinkUp (m : Motor) (s : State) : Host.Outcome State Fault Refusal :=
  occur (.linkUp m) s

/-- LINK_LOST. Link `m` is lost (R88). -/
def execLinkLost (m : Motor) (s : State) : Host.Outcome State Fault Refusal :=
  occur (.linkLost m) s

/-- TRIP_IN_ASSERTED. TRIP_IN is asserted (R161); a block whose event is under way takes it whole first (R98, R158). -/
def execTripInAsserted (s : State) : Host.Outcome State Fault Refusal :=
  actOn Machine.tripInAsserted (finishEvent s)

/-- TRIP_IN_RELEASED. TRIP_IN is released (R161). -/
def execTripInReleased (s : State) : Host.Outcome State Fault Refusal :=
  actOn Machine.tripInReleased s

/-- RECORD_CLOSE. The record being filled is closed (R170). -/
def execRecordClose (s : State) : Host.Outcome State Fault Refusal :=
  occur .recordClose s

/-- TRIP_RAMP_END. The trip ramp of `m` has come to 0 (R111). -/
def execTripRampEnd (m : Motor) (s : State) : Host.Outcome State Fault Refusal :=
  occur (.tripRampEnd m) s

/-- MAGNETIZING_RAMP_FINISHED. A magnetizing ramp is finished (R100, R101, R113). -/
def execMagnetizingRampFinished (s : State) : Host.Outcome State Fault Refusal :=
  occur .magnetizingRampFinished s

/-- FAILED_START. The breakaway allowance has run out (R101). -/
def execFailedStart (s : State) : Host.Outcome State Fault Refusal :=
  occur .failedStart s

/-- GEAR_OVERLOAD. A gear overload is detected (R132). -/
def execGearOverload (s : State) : Host.Outcome State Fault Refusal :=
  occur .gearOverload s

/-- DERATE_HOLD_EXPIRY. The derate hold of `g` runs out (R146). -/
def execDerateHoldExpiry (g : VibGroup) (s : State) : Host.Outcome State Fault Refusal :=
  occur (.derateHoldExpiry g) s

end Sys2Proof.Machine
end

