-- ==== Sys2Proof/Machine/Dispatch.lean ====
section
/-! DEFINITION. The meaning of each command, arm by arm. -/

namespace Sys2Proof.Machine

def exec (i : Instr) (s : State) : Host.Outcome State Fault Refusal :=
  match i with
  | .powerOnReset => Sys2Proof.Machine.execPowerOnReset s
  | .resetEnd => Sys2Proof.Machine.execResetEnd s
  | .partResetRequest value => Sys2Proof.Machine.execPartResetRequest value s
  | .attentionAcknowledge value => Sys2Proof.Machine.execAttentionAcknowledge value s
  | .routingWrite value => Sys2Proof.Machine.execRoutingWrite value s
  | .registerWriteIgnored value => Sys2Proof.Machine.execRegisterWriteIgnored value s
  | .hostWrite word value => Sys2Proof.Machine.execHostWrite word value s
  | .hostRead target => Sys2Proof.Machine.execHostRead target s
  | .controlPeriodExpiry => Sys2Proof.Machine.execControlPeriodExpiry s
  | .supervisionFrame order => Sys2Proof.Machine.execSupervisionFrame order s
  | .conversionSlotEnd input => Sys2Proof.Machine.execConversionSlotEnd input s
  | .scanComplete order => Sys2Proof.Machine.execScanComplete order s
  | .currentSensorLost m => Sys2Proof.Machine.execCurrentSensorLost m s
  | .windowEnd c => Sys2Proof.Machine.execWindowEnd c s
  | .captureBlockWrite e => Sys2Proof.Machine.execCaptureBlockWrite e s
  | .captureComplete e => Sys2Proof.Machine.execCaptureComplete e s
  | .selftestSettlingEnd => Sys2Proof.Machine.execSelftestSettlingEnd s
  | .selftestMeasuringEnd => Sys2Proof.Machine.execSelftestMeasuringEnd s
  | .selftestEnd => Sys2Proof.Machine.execSelftestEnd s
  | .encoderTransition m p q => Sys2Proof.Machine.execEncoderTransition m p q s
  | .encoderValidRegained m => Sys2Proof.Machine.execEncoderValidRegained m s
  | .lineBreakAsserted m => Sys2Proof.Machine.execLineBreakAsserted m s
  | .lineBreakReleased m => Sys2Proof.Machine.execLineBreakReleased m s
  | .encoderLost m => Sys2Proof.Machine.execEncoderLost m s
  | .overspeed => Sys2Proof.Machine.execOverspeed s
  | .speedMismatch => Sys2Proof.Machine.execSpeedMismatch s
  | .unknownKind cell => Sys2Proof.Machine.execUnknownKind cell s
  | .applySettings cell => Sys2Proof.Machine.execApplySettings cell s
  | .applyRatings cell => Sys2Proof.Machine.execApplyRatings cell s
  | .run cell => Sys2Proof.Machine.execRun cell s
  | .stop cell => Sys2Proof.Machine.execStop cell s
  | .halt cell => Sys2Proof.Machine.execHalt cell s
  | .setSpeed cell => Sys2Proof.Machine.execSetSpeed cell s
  | .clearTrip cell => Sys2Proof.Machine.execClearTrip cell s
  | .motorOut cell => Sys2Proof.Machine.execMotorOut cell s
  | .motorIn cell => Sys2Proof.Machine.execMotorIn cell s
  | .capture cell => Sys2Proof.Machine.execCapture cell s
  | .captureCancel cell => Sys2Proof.Machine.execCaptureCancel cell s
  | .vibSelftest cell => Sys2Proof.Machine.execVibSelftest cell s
  | .linkTest cell => Sys2Proof.Machine.execLinkTest cell s
  | .linkReset cell => Sys2Proof.Machine.execLinkReset cell s
  | .replyReceived m words => Sys2Proof.Machine.execReplyReceived m words s
  | .replyWindowClose m => Sys2Proof.Machine.execReplyWindowClose m s
  | .linkUp m => Sys2Proof.Machine.execLinkUp m s
  | .linkLost m => Sys2Proof.Machine.execLinkLost m s
  | .tripInAsserted => Sys2Proof.Machine.execTripInAsserted s
  | .tripInReleased => Sys2Proof.Machine.execTripInReleased s
  | .recordClose => Sys2Proof.Machine.execRecordClose s
  | .tripRampEnd m => Sys2Proof.Machine.execTripRampEnd m s
  | .magnetizingRampFinished => Sys2Proof.Machine.execMagnetizingRampFinished s
  | .failedStart => Sys2Proof.Machine.execFailedStart s
  | .gearOverload => Sys2Proof.Machine.execGearOverload s
  | .derateHoldExpiry g => Sys2Proof.Machine.execDerateHoldExpiry g s

end Sys2Proof.Machine
end

