-- ==== Sys2Proof/Machine/Step.lean ====
section
/-! DEFINITION. One step: the command at the front of the queue, or the work that is due. -/

namespace Sys2Proof.Machine

/-- With no command waiting, the work that is due goes on by itself up to the next row of the table, and with
nothing due the block idles (DESIGN CHOICE, log 1). -/
def idleStep (s : State) : Host.Outcome State Fault Refusal :=
  match s.agenda with
  | [] => .next s
  | w :: rest => .next (drain (runFirst w rest s))

/-- The step: the command at the front of the queue is run with the rest of the queue waiting. -/
def step (s : State) : Host.Outcome State Fault Refusal :=
  match s.pending with
  | [] => idleStep s
  | c :: rest => exec c { s with pending := rest }

/-- The state with the command that a word of the table spells put at the front of the queue; no word spells
one, so the state is unchanged. -/
def State.withFetchWord (s : State) (nbits w : Nat) : State :=
  match decodeTableWord nbits w with
  | some c => { s with pending := c :: s.pending }
  | none => s

end Sys2Proof.Machine
end

