-- ==== Sys2Proof/Safety.lean ====
section
/-! DEFINITION. What every reachable state keeps, in the terms that statements use. -/

namespace Sys2Proof.Machine

/-! ## What a command may change -/

/-- The blocks of the part's state. -/
inductive Block
  | phase | pins | exch | attn | orders | acq | ctl | links | seq | allot | vib | trip | cap
deriving DecidableEq, Repr

/-- One block is the same in two parts. -/
def Part.agree (p q : Part) : Block → Prop
  | .phase => q.phase = p.phase
  | .pins => q.pins = p.pins
  | .exch => q.exch = p.exch
  | .attn => q.attn = p.attn
  | .orders => q.orders = p.orders
  | .acq => q.acq = p.acq
  | .ctl => q.ctl = p.ctl
  | .links => q.links = p.links
  | .seq => q.seq = p.seq
  | .allot => q.allot = p.allot
  | .vib => q.vib = p.vib
  | .trip => q.trip = p.trip
  | .cap => q.cap = p.cap

/-- Every block but those of `changed` is the same in `q` as in `p`. -/
def Part.keeps (changed : List Block) (p q : Part) : Prop := ∀ b, b ∉ changed → p.agree q b

/-- Every byte of exchange memory outside `stored` reads the same in `q` as in `p`, and the guard's own
count and offset are the same. -/
def Part.storesOnly (stored : Nat → Prop) (p q : Part) : Prop :=
  (∀ a, ¬ stored a → readByte q.exch.mem a = readByte p.exch.mem a) ∧
  q.exch.guardCount = p.exch.guardCount ∧ q.exch.guardedOffset = p.exch.guardedOffset

/-- An attention source is pending. -/
def Part.raised (p : Part) (src : Source) : Bool := p.attn.pending.getLsbD src.number

/-- The attention unit of `q` is that of `p` with the sources of `srcs` pending too, and nothing else. -/
def Part.raisesOnly (srcs : List Source) (p q : Part) : Prop :=
  q.attn.routing = p.attn.routing ∧
  ∀ src, q.raised src = (p.raised src || srcs.contains src)

/-! ## Order cells -/

/-- The bytes of a cell that the part writes: all of its first half but the kind and the tag. -/
def cellAnswerByte (n : CellId) (a : Nat) : Prop :=
  cellOffset n ≤ a ∧ a < cellOffset n + 0x20 ∧ ¬ (cellOffset n + 0x02 ≤ a ∧ a < cellOffset n + 0x06)

/-- A cell of `q` is finished as R13 says, at the frame count of `p`. -/
structure CellFinished (n : CellId) (code : ResultCode) (values : List Word) (p q : Part) : Prop where
  state : readWord q.exch.mem (cellOffset n) = code.state
  code : readWord q.exch.mem (cellOffset n + 0x0E) = wordOfNat code.code
  values : readWords q.exch.mem (cellOffset n + 0x10) 8 = resultValues values
  doneFrame : readWords q.exch.mem (cellOffset n + 0x0A) 2 = wordsOf32 p.acq.frameCount

/-- A cell of `q` was taken at the frame count of `p` (R12, R13). -/
structure CellTakenAt (n : CellId) (p q : Part) : Prop where
  takenFrame : readWords q.exch.mem (cellOffset n + 0x06) 2 = wordsOf32 p.acq.frameCount
  count : q.orders.taken = p.orders.taken + 1#32

/-- An order finished in the scan that took it, storing to its own cell alone. -/
structure OrderAnswered (n : CellId) (code : ResultCode) (values : List Word) (p q : Part) : Prop where
  finished : CellFinished n code values p q
  taken : CellTakenAt n p q
  raises : Part.raisesOnly [.order] p q
  stores : Part.storesOnly (cellAnswerByte n) p q

/-- A refused order: no effect beyond its own cell, the orders-taken count and ORDER (R13). -/
structure OrderRefused (n : CellId) (code : ResultCode) (values : List Word) (p q : Part) : Prop where
  answered : OrderAnswered n code values p q
  orders : q.orders = { p.orders with taken := p.orders.taken + 1#32 }
  keeps : Part.keeps [.exch, .attn, .orders] p q

/-- An accepted order whose work takes time, storing to its own cell alone. -/
structure OrderAccepted (n : CellId) (p q : Part) : Prop where
  state : readWord q.exch.mem (cellOffset n) = cellTaken
  taken : CellTakenAt n p q
  stores : Part.storesOnly (cellAnswerByte n) p q

/-! ## The settings page and the ratings record -/

/-- The single fields of the settings page, as the table of spec 02 gives them: byte offset, how the word is
read, range, and what becomes of a value outside it. -/
def pageFields : List (Nat × FieldRule) :=
  [(0x000, .clampU 0 65535), (0x002, .clampU 0 65535), (0x004, .clampU 0 65535),
   (0x006, .clampU 16384 32767), (0x008, .clampU 0 32767), (0x00A, .clampS 1024 24576),
   (0x00C, .clampU 50 2000), (0x00E, .clampU 0 65535), (0x010, .clampU 0 65535),
   (0x012, .clampS 0 8192), (0x014, .clampU 1 4096), (0x016, .clampU 1 4096), (0x018, .clampS 0 8192),
   (0x01A, .clampS 0 8192), (0x01C, .clampS 0 8192), (0x01E, .clampS 0 8192), (0x020, .clampS 0 8192),
   (0x022, .refuseU 0 7), (0x024, .clampU 1 4096), (0x026, .clampU 0 256), (0x028, .refuseU 0 1),
   (0x02A, .clampS 0 16384), (0x02C, .clampS 0 16384), (0x02E, .refuseU 0 65535),
   (0x030, .clampU 1 255), (0x032, .refuseU 16 22), (0x034, .clampU 0 65535),
   (0x036, .refuseU 0 65535), (0x038, .clampU 0 32767), (0x03A, .refuseU 9 12), (0x03C, .refuseU 0 255),
   (0x03E, .clampU 1 15), (0x040, .clampU 1 15), (0x042, .refuseU 0 448), (0x044, .refuseU 0 128),
   (0x046, .clampU 1 8), (0x048, .refuseS 0 32767), (0x04A, .clampU 1 255), (0x04C, .refuseU 0 63),
   (0x04E, .refuseU 0 63)]

/-- The five fields of vibration group `g` on the settings page. -/
def pageGroupFields (g : Nat) : List (Nat × FieldRule) :=
  [(0x05E + 10 * g, .clampU 0 32767), (0x060 + 10 * g, .clampU 0 32767),
   (0x062 + 10 * g, .clampU 0 32767), (0x064 + 10 * g, .clampU 0 32767), (0x066 + 10 * g, .refuseU 0 7)]

/-- Every field of the settings page: the single fields, the seven band edges, the group fields, and the eighty
thresholds and self-test levels. -/
def pageTable : List (Nat × FieldRule) :=
  let edge := fun i : Nat => (0x050 + 2 * i, FieldRule.refuseS (-32768) 32767)
  let level := fun i : Nat => (0x086 + 2 * i, FieldRule.refuseU 0 32767)
  pageFields ++ (List.range 7).map edge ++ (List.range 4).flatMap pageGroupFields ++
    (List.range 80).map level

/-- A value outside the range of its row. -/
def outsideRange (r : FieldRule) (w : Word) : Prop :=
  let v : Int := if r.signed then w.toInt else (w.toNat : Int)
  v < r.lo ∨ r.hi < v

/-- The relation of R30 that a field of a copy has to a field below it, where it does not hold. -/
def pageRelationBroken (ws : List Word) (off : Nat) : Prop :=
  (off = 0x02E ∧ (copyNat ws 0x02E : Int) < copyInt ws 0x02A) ∨
  (off = 0x036 ∧ copyNat ws 0x036 ≤ copyNat ws 0x034) ∨
  (off = 0x044 ∧ 480 < copyNat ws 0x042 + copyNat ws 0x044) ∨
  (∃ i, i < 6 ∧ off = 0x052 + 2 * i ∧ copyInt ws off ≤ copyInt ws (0x050 + 2 * i)) ∨
  (∃ i, i < 32 ∧ off = 0x088 + 4 * i ∧ copyNat ws off < copyNat ws (0x086 + 4 * i)) ∨
  (∃ i, i < 8 ∧ off = 0x108 + 4 * i ∧ copyNat ws off < copyNat ws (0x106 + 4 * i))

/-- What validation makes of a copy of a page (R30): a clamped field is at the nearer end of its range, every
other word is as read, and the clamped and the failing offsets are exactly those that the table and the
relations give. -/
structure PageValidated (ws : List Word) (v : Validation) : Prop where
  length : v.copy.length = ws.length
  kept : ∀ row ∈ pageTable, ¬ outsideRange row.2 (copyWord ws row.1) ∨ row.2.outside = .refused →
    copyWord v.copy row.1 = copyWord ws row.1
  clamped : ∀ row ∈ pageTable, outsideRange row.2 (copyWord ws row.1) → row.2.outside = .clamped →
    let w := copyWord ws row.1
    let x : Int := if row.2.signed then w.toInt else (w.toNat : Int)
    copyWord v.copy row.1 = BitVec.ofInt 16 (if x < row.2.lo then row.2.lo else row.2.hi)
  clamps : ∀ off, off ∈ v.clamps ↔ ∃ row ∈ pageTable, row.1 = off ∧ row.2.outside = .clamped ∧
    outsideRange row.2 (copyWord ws off)
  ascending : v.clamps.Pairwise (· < ·)
  fails : ∀ off, off ∈ v.fails ↔
    (∃ row ∈ pageTable, row.1 = off ∧ row.2.outside = .refused ∧ outsideRange row.2 (copyWord ws off)) ∨
    pageRelationBroken v.copy off

/-! ## Commands that stand for due work -/

/-- The rows that report one cause to the trip unit and do nothing else. -/
inductive ReportRow : Instr → Work → Cause → Prop
  | currentSensorLost (m : Motor) :
    ReportRow (.currentSensorLost m) (.currentSensorLost m) (.currentSensorLost m)
  | encoderLost (m : Motor) : ReportRow (.encoderLost m) (.encoderLost m) (.encoderLost m)
  | overspeed : ReportRow .overspeed .overspeed .overspeed
  | speedMismatch : ReportRow .speedMismatch .speedMismatch .speedMismatch
  | failedStart : ReportRow .failedStart .failedStart .failedStart

/-- The bytes that a trip event may store to (R158): trip-record slots, and the cells of the RUN and of the
STOP in flight. -/
def tripByte (p : Part) (a : Nat) : Prop :=
  Config.slotBase ≤ a ∨ (∃ r, p.orders.run = some r ∧ cellAnswerByte r.cell a) ∨
  (∃ n, p.orders.stop = some n ∧ cellAnswerByte n a)

/-! ## Trip records (spec 09, "The record writer") -/

/-- A motor's words in the header of a record, by offset within its context (spec 09, "Header layout"). -/
def recordMotorFields (p : Part) (m : Motor) : List (Nat × Word) :=
  [(0x00, wordOfNat (p.motorState m).code), (0x02, wordOf (p.seq.motor.get m).idRef),
   (0x04, wordOf (p.allot.motor.get m).iqRef), (0x06, wordOf (p.ctl.get m).integD),
   (0x08, wordOf (p.ctl.get m).integQ), (0x0A, wordOfNat (p.ctl.get m).theta),
   (0x0C, wordOfNat (p.ctl.get m).slip), (0x0E, wordOfNat ((p.allot.motor.get m).thermalH / 65536)),
   (0x10, wordOf (p.allot.motor.get m).motoring), (0x12, wordOf (p.allot.motor.get m).regenerating),
   (0x14, wordOfNat (p.allot.motor.get m).shown.code), (0x16, wordOf (p.allot.motor.get m).torqueRef),
   (0x18, wordOfNat (p.links.get m).state.code), (0x1A, wordOf (p.acq.enc.get m).speed)]

/-- The header words that a trip event of cause `c` and class `cls` samples from the part `p` that it finds,
by offset within the slot (R169). -/
def recordFields (c : Cause) (cls : TripClass) (p : Part) : List (Nat × Word) :=
  [(0x02, p.trip.sequence + 1#16), (0x04, wordOfNat c.number), (0x06, wordOfNat cls.code),
   (0x0C, 0#16), (0x0E, 0#16), (0x20, 0#16), (0x2C, 0#16),
   (0x22, wordOfNat p.settings.tag), (0x24, wordOfNat p.orders.applyCount),
   (0x26, wordOfNat p.settings.preTrip), (0x28, wordOfNat p.settings.postTrip),
   (0x34, wordOfNat p.seq.group.code), (0x36, wordOf p.seq.reference),
   (0x38, wordOf p.seq.integrator), (0x3A, wordOf p.seq.demand), (0x3C, wordOf p.acq.driveSpeed),
   (0x3E, wordOfBool p.acq.driveHeld)]

/-- The history entries that a record copies: the last ones of the ring, as many as the sampled P at the
most (R168). -/
def recordPreTrip (p : Part) : List HistoryEntry :=
  p.trip.history.drop (p.trip.history.length - p.settings.preTrip)

/-- A record opened in slot `x` by a trip event of cause `c` and class `cls` that finds the part `p`
(R168 to R170). -/
structure RecordOpened (x : SlotId) (c : Cause) (cls : TripClass) (p q : Part) : Prop where
  state : slotState q x = if p.settings.postTrip = 0 then slotReady else slotFilling
  filling : q.trip.filling =
    if p.settings.postTrip = 0 then none
    else some { slot := x, preTrip := p.settings.preTrip, postTrip := p.settings.postTrip
                preWritten := (recordPreTrip p).length, postWritten := 0, listed := 0, more := 0
                frames := 0 }
  raised : q.raised .record = (p.raised .record || p.settings.postTrip == 0)
  fields : ∀ f ∈ recordFields c cls p, readWord q.exch.mem (slotOffset x + f.1) = f.2
  frame : readWords q.exch.mem (slotOffset x + 0x08) 2 = wordsOf32 p.acq.frameCount
  latched : readWords q.exch.mem (slotOffset x + 0x30) 2 = wordsOf32 (latchedBits q.trip.latched)
  conditions : readWords q.exch.mem (slotOffset x + 0x58) 2 = wordsOf32 (conditionBits p)
  groups : ∀ g : VibGroup, readWords q.exch.mem (slotOffset x + 0x40 + 6 * g.number) 3 =
    [wordOfNat (p.vib.group.get g).state.code, wordOfNat (p.vib.group.get g).factor,
     wordOfNat (groupLevel p g)]
  motorA : ∀ f ∈ recordMotorFields p .a, readWord q.exch.mem (slotOffset x + 0x60 + f.1) = f.2
  motorB : ∀ f ∈ recordMotorFields p .b, readWord q.exch.mem (slotOffset x + 0x80 + f.1) = f.2
  preCount : readWord q.exch.mem (slotOffset x + 0x2A) = wordOfNat (recordPreTrip p).length
  pre : readWords q.exch.mem (slotOffset x + 0x400) (16 * (recordPreTrip p).length) =
    (recordPreTrip p).flatMap HistoryEntry.words
  fastCount : readWord q.exch.mem (slotOffset x + 0x2E) = wordOfNat p.trip.fast.length
  fast : (p.trip.fast.flatMap FastEntry.words).length ≤ 256 →
    readWords q.exch.mem (slotOffset x + 0x200) (p.trip.fast.flatMap FastEntry.words).length =
      p.trip.fast.flatMap FastEntry.words
  /-- No other byte of any slot is stored to (by R30, P and Q come to 480 at most). -/
  stores : (p.trip.fast.flatMap FastEntry.words).length ≤ 256 → (recordPreTrip p).length ≤ 480 →
    ∀ a, Config.slotBase ≤ a → (a < slotOffset x ∨ slotOffset x + 0x400 +
      32 * (recordPreTrip p).length ≤ a) → readByte q.exch.mem a = readByte p.exch.mem a

/-- A trip event noted as a follow-on of the record being filled (R171); what its frame number counts in the frame
of the trip is log 37. -/
structure FollowOnNoted (f : Filling) (c : Cause) (cls : TripClass) (p q : Part) : Prop where
  filling : q.trip.filling =
    if f.listed < 4 then some { f with listed := f.listed + 1 }
    else some { f with more := min 255 (f.more + 1) }
  listed : f.listed < 4 →
    readWords q.exch.mem (slotOffset f.slot + 0x10 + 4 * f.listed) 2 =
      [wordOfNat (c.number + 256 * cls.code), wordOfNat f.frames] ∧
    readWord q.exch.mem (slotOffset f.slot + 0x0C) = wordOfNat (f.listed + 1) ∧
    ∀ a, Config.slotBase ≤ a → a ≠ slotOffset f.slot + 0x0C → a ≠ slotOffset f.slot + 0x0D →
      (a < slotOffset f.slot + 0x10 + 4 * f.listed ∨ slotOffset f.slot + 0x14 + 4 * f.listed ≤ a) →
      readByte q.exch.mem a = readByte p.exch.mem a
  more : 4 ≤ f.listed →
    readWord q.exch.mem (slotOffset f.slot + 0x0E) = wordOfNat (min 255 (f.more + 1)) ∧
    ∀ a, Config.slotBase ≤ a → a ≠ slotOffset f.slot + 0x0E → a ≠ slotOffset f.slot + 0x0F →
      readByte q.exch.mem a = readByte p.exch.mem a
  raised : q.raised .record = p.raised .record

/-- What the record writer does with a trip event (R168 to R172): a follow-on while a slot is FILLING, else
a record in the lowest FREE slot, else one more unrecorded trip. -/
structure TripRecorded (c : Cause) (cls : TripClass) (p q : Part) : Prop where
  followOn : ∀ f, p.trip.filling = some f → FollowOnNoted f c cls p q
  opened : p.trip.filling = none → ∀ x : SlotId, slotState p x = slotFree →
    (∀ y : SlotId, y.number < x.number → slotState p y ≠ slotFree) → RecordOpened x c cls p q
  unrecorded : p.trip.filling = none → (∀ x, slotState p x ≠ slotFree) →
    q.trip.filling = none ∧ q.raised .record = p.raised .record ∧
    q.trip.unrecorded = min 255 (p.trip.unrecorded + 1) ∧
    ∀ a, Config.slotBase ≤ a → readByte q.exch.mem a = readByte p.exch.mem a
  recorded : (p.trip.filling ≠ none ∨ ∃ x, slotState p x = slotFree) →
    q.trip.unrecorded = p.trip.unrecorded
  rings : q.trip.history = p.trip.history ∧ q.trip.fast = p.trip.fast

/-- Step 5 of R158: what a trip event makes of the RUN and of the STOP in flight (R18, R19, R113). The STOP is
over; the RUN is over for a group cause or a cause of a motor it names, and where the response has put the group
or a motor that it is bringing in into TRIPPED. The cell of an order that is over is finished ABORTED_BY_TRIP and
ORDER is pending; the cell of a RUN that goes on is left as it is. -/
structure OrdersAtTrip (c : Cause) (p q : Part) : Prop where
  entries : q.orders = { p.orders with stop := none, run := q.orders.run }
  runStays : q.orders.run = none ∨ q.orders.run = p.orders.run
  runOver : ∀ r, p.orders.run = some r → (q.orders.run = none ↔
    c.owner = none ∨ (∃ m, c.owner = some m ∧ r.named.get m = true) ∨
    (p.seq.group ≠ .tripped ∧ q.seq.group = .tripped) ∨
    ∃ m, r.joining.get m = true ∧ p.motorState m ≠ .tripped ∧ q.motorState m = .tripped)
  runCell : ∀ r, p.orders.run = some r → q.orders.run = none →
    CellFinished r.cell .abortedByTrip [] p q
  stopCell : ∀ n, p.orders.stop = some n → CellFinished n .abortedByTrip [] p q
  runKept : ∀ r, q.orders.run = some r → p.orders.stop ≠ some r.cell → ∀ a, cellAnswerByte r.cell a →
    readByte q.exch.mem a = readByte p.exch.mem a
  pending : q.raised .order = (p.raised .order || p.orders.stop.isSome ||
    (p.orders.run.isSome && q.orders.run.isNone))

/-- A trip event as R158 numbers, latches and records it, with the blocks that it leaves alone. -/
structure TripTaken (c : Cause) (cls : TripClass) (p q : Part) : Prop where
  latched : q.trip.latched = latchInto { cause := c, cls } p.trip.latched
  sequence : q.trip.sequence = p.trip.sequence + 1#16
  raised : q.raised .trip = true
  engines : ∀ e, (p.cap.get e).state = .armed → (p.cap.get e).start = .onTrip →
    q.cap.get e = { p.cap.get e with state := .running }
  otherEngines : ∀ e, ¬ ((p.cap.get e).state = .armed ∧ (p.cap.get e).start = .onTrip) →
    q.cap.get e = p.cap.get e
  stores : Part.storesOnly (tripByte p) p q
  recorded : TripRecorded c cls p q
  orders : OrdersAtTrip c p q
  attention : q.attn.routing = p.attn.routing ∧
    ∀ src, src ≠ .trip → src ≠ .order → src ≠ .record → q.raised src = p.raised src
  keeps : Part.keeps [.exch, .attn, .orders, .seq, .trip, .cap] p q

/-! ## Resets -/

/-- What the start of either reset makes of the blocks, beside the phase, the exchange memory, the thermal states
and the trip unit's two counts (R10, R14, R42, R46, R61, R81, R94, R117, R135, R153, R174, R186). The validity of
an encoder is set at the end of the reset (R61); the input lines stand as they are. The values of the model's own
fields are those of logs 14, 19, 20, 23, 34 and 35. -/
structure ResetBlocks (p q : Part) : Prop where
  guard : q.exch.guardCount = 0 ∧ q.exch.guardedOffset = 0
  attn : q.attn = { pending := 0#8, routing := 0#16 }
  orders : q.orders =
    { taken := 0#32, run := none, stop := none, selftest := none
      capture := { e0 := none, e1 := none }, linkTest := { a := none, b := none }
      settings := Settings.resetCopy, settingsApplied := false, activePage := 0, applyCount := 0
      ratings := Ratings.resetCopy, ratingsApplied := false }
  acq : q.acq =
    { frameCount := 0#32, period := 0, slot := none, converted := []
      scan := List.replicate 14 { value := 0, mark := .valid }, enc := q.acq.enc, driveSpeed := 0
      driveHeld := false, overspeedRun := 0, mismatchRun := 0, mismatchReported := false
      mismatchPresent := false, testLines := 0#8, published := false }
  encoder : ∀ m, q.acq.enc.get m =
    { p := (p.acq.enc.get m).p, q := (p.acq.enc.get m).q, lineBreak := (p.acq.enc.get m).lineBreak
      counter := 0#32, valid := (q.acq.enc.get m).valid, legalRun := (q.acq.enc.get m).legalRun
      disturbed := (q.acq.enc.get m).disturbed, snapshots := List.replicate 8 0#32
      flags := List.replicate 8 false, speed := 0, speedValid := true, invalidRun := 0 }
  control : ∀ m, q.ctl.get m =
    { heldA := 0, heldB := 0, heldUdc := 0, runA := 0, runB := 0, energized := false
      start := { countsPerRev := 256, kang := 0, kslip := 0 }, slip := 0, theta := 0, integD := 0
      integQ := 0, vd := 0, vq := 0, vAlpha := 0, vBeta := 0, id := 0, iq := 0, limited := 0 }
  link : ∀ m, q.links.get m =
    { state := .down, sequence := 0, window := none, syncRun := 0, lossCount := 0, status := .notReady
      faultCode := 0, testPending := false, sent := [] }
  motor : ∀ m, q.seq.motor.get m =
    { state := .stopped, stepCount := 0, idRef := 0, ramp := 0, ramping := false }
  seq : q.seq =
    { motor := q.seq.motor, group := .idle, setpoint := 0, reference := 0, remainder := 0
      rising := false, integrator := 0, demand := 0, allowance := none }
  limit : ∀ m, q.allot.motor.get m =
    { thermalH := (q.allot.motor.get m).thermalH, motoring := 0, regenerating := 0
      motoringSource := .sequencer, regeneratingSource := .sequencer, shown := .sequencer
      torqueRef := 0, iqRef := 0, estimate := 0 }
  allot : q.allot =
    { motor := q.allot.motor, motoringFrame := true, groupLimited := 0, gearRun := 0
      gearReported := false, gearNoticed := false, limitRaised := false, published := false }
  channel : ∀ c, q.vib.channel.get c =
    { xPrev := 0, yPrev := 0, accumulator := 0, samples := 0, invalid := 0, alertRun := 0
      dangerRun := 0, level := 0, state := .disabled }
  group : ∀ g, q.vib.group.get g = { state := .disabled, factor := 32767, hold := none, holdShown := 0 }
  vib : q.vib =
    { channel := q.vib.channel, group := q.vib.group, windowCode := 9, band := 0, test := none
      published := false }
  trip : q.trip =
    { latched := [], sequence := q.trip.sequence, unrecorded := q.trip.unrecorded, filling := none
      history := [], fast := [] }
  engine : ∀ e, q.cap.get e =
    { state := .idle, channel := 0, base := 0, requested := 0, start := .immediate, written := 0
      remaining := 0, block := [], notes := [], rangeCount := 0, lateCount := 0
      firstInvalid := none, firstTime := none }
  lines : (∀ m, inhibitLine q m = true) ∧ ∀ c, testLine q c = false

/-! ## Invariants -/

/-- No routing field holds 3 (R9). -/
def Attention.routingLegal (a : Attention) : Prop := ∀ src, routeOf a.routing src ≠ 3

/-- The latched cause set lists its causes by rising number, so it holds each at most once (R155). -/
def latchedAscending : List Latched → Prop
  | [] => True
  | [_] => True
  | x :: y :: rest => x.cause.number < y.cause.number ∧ latchedAscending (y :: rest)

/-- The run counts of an encoder lie within the ranges of R52 and R55. -/
def Encoder.inRange (e : Encoder) : Prop := e.legalRun ≤ 16 ∧ e.invalidRun ≤ 255

/-- The invalid-sample run counts lie within the range of R67. -/
def Control.inRange (c : Control) : Prop := c.runA ≤ 255 ∧ c.runB ≤ 255

/-- The counts of a link lie within the ranges of R82, R87 and R88. -/
def Link.inRange (l : Link) : Prop := l.sequence < 16 ∧ l.syncRun ≤ 16 ∧ l.lossCount ≤ 8

/-- The two run counts of a vibration channel lie within the range of R141. -/
def Channel.inRange (c : Channel) : Prop := c.alertRun ≤ 15 ∧ c.dangerRun ≤ 15

/-- Every count that the spec bounds lies within its bound (R2, R31, R47, R52, R55, R57, R58, R67, R82, R87,
R88, R100, R102, R125, R132, R141, R165, R166, R171, R172). -/
structure Part.CountsInRange (p : Part) : Prop where
  guardCount : p.exch.guardCount ≤ 65535
  applyCount : p.orders.applyCount ≤ 65535
  period : p.acq.period ≤ 4
  encoder : ∀ m, (p.acq.enc.get m).inRange
  overspeedRun : p.acq.overspeedRun ≤ 255
  mismatchRun : p.acq.mismatchRun ≤ 255
  control : ∀ m, (p.ctl.get m).inRange
  link : ∀ m, (p.links.get m).inRange
  stepCount : ∀ m, (p.seq.motor.get m).stepCount ≤ 65535
  remainder : p.seq.remainder < 1000
  thermal : ∀ m, (p.allot.motor.get m).thermalH < 2 ^ 32
  gearRun : p.allot.gearRun ≤ 255
  channel : ∀ c, (p.vib.channel.get c).inRange
  unrecorded : p.trip.unrecorded ≤ 255
  followOns : ∀ f, p.trip.filling = some f → f.listed ≤ 4 ∧ f.more ≤ 255
  history : p.trip.history.length ≤ Config.historyCapacity
  fast : p.trip.fast.length ≤ Config.fastCapacity

/-- The exchange memory is in its canonical form. -/
def Part.memoryCanonical (p : Part) : Prop := Memory.wf p.exch.mem = true

/-- A safe state: canonical memory, legal routing, causes latched once, counts in range. -/
structure Part.Inv (p : Part) : Prop where
  memory : p.memoryCanonical
  routing : p.attn.routingLegal
  latched : latchedAscending p.trip.latched
  counts : p.CountsInRange

end Sys2Proof.Machine
end

