-- ==== Sys2Proof/WellFormed.lean ====
section
/-! DEFINITION. Which command terms stand for something that can come about. -/

namespace Sys2Proof

/-- No block stands twice in an order of work. -/
def noRepeats {α : Type} [DecidableEq α] : List α → Bool
  | [] => true
  | x :: xs => !xs.contains x && noRepeats xs

/-- A block takes its frame work once (R47), a receiver gets a scan once (R48), and a reply frame is a
run of at least one word (spec 05, "Frames"). Every other operand may take every value. -/
def Instr.wellFormed : Instr → Bool
  | .supervisionFrame order => noRepeats order
  | .scanComplete order => noRepeats order
  | .replyReceived _ words => !words.isEmpty
  | .powerOnReset | .resetEnd | .partResetRequest _ | .attentionAcknowledge _ | .routingWrite _
  | .registerWriteIgnored _ | .hostWrite _ _ | .hostRead _ | .controlPeriodExpiry
  | .conversionSlotEnd _ | .currentSensorLost _ | .windowEnd _ | .captureBlockWrite _
  | .captureComplete _ | .selftestSettlingEnd | .selftestMeasuringEnd | .selftestEnd
  | .encoderTransition _ _ _ | .encoderValidRegained _ | .lineBreakAsserted _
  | .lineBreakReleased _ | .encoderLost _ | .overspeed | .speedMismatch | .unknownKind _
  | .applySettings _ | .applyRatings _ | .run _ | .stop _ | .halt _ | .setSpeed _ | .clearTrip _
  | .motorOut _ | .motorIn _ | .capture _ | .captureCancel _ | .vibSelftest _ | .linkTest _
  | .linkReset _ | .replyWindowClose _ | .linkUp _ | .linkLost _ | .tripInAsserted
  | .tripInReleased | .recordClose | .tripRampEnd _ | .magnetizingRampFinished | .failedStart
  | .gearOverload | .derateHoldExpiry _ => true

end Sys2Proof
end

