-- ==== Sys2Proof/Certificates/Slice0/Obligations.lean ====
section
/-! DEFINITION. The statements for the provers: one proposition each, listed in OBLIGATIONS.json. -/

open Sys2Proof Sys2Proof.Machine

/-- A kind word of 0 or above 14 names no kind. The taking of such a cell, when it is due, answers a next
state in which the cell is REFUSED with UNKNOWN_KIND whatever its arguments hold, and which differs from
the state before only in the cell's answer words, the orders-taken count and the ORDER source. (R15) -/
def Obligations.UnknownKindRefused : Prop :=
  (∀ w : Word, w = 0#16 ∨ 14 < w.toNat → orderKind w = .unknown) ∧
  ∀ (n : CellId) (s : State) (rest : List Work), s.agenda = .order .unknown n :: rest →
    Memory.wf s.part.exch.mem = true →
    ∃ q, exec (.unknownKind n) s = .next (drain { s with agenda := rest, part := q }) ∧
      OrderRefused n .unknownKind [] s.part q

/-- Of 147 words, validation keeps every word within the range of its field, puts a clamped field at the
nearer end and lists its offset, lists every refused field and every broken relation as failing, and
lists clamps in ascending offset. The settings take each field from its offset. APPLY_SETTINGS, when due:
an argument other than 1 or 2 is refused BAD_ARGUMENT; a self-test in flight refuses it BUSY; a copy of
the named page with a failing field is refused BAD_SETTINGS with the lowest failing offset; otherwise the
clamped copy becomes the active settings with the page, the flag and the next apply count, the stored
setpoint comes down to the new maximum speed if it was above, and the cell is finished with the count and
first offset of the clamped fields, the tag and the apply count. Nothing else changes. (R16, R29, R30,
R31, R33) -/
def Obligations.ApplySettingsOrder : Prop :=
  (∀ ws : List Word, ws.length = 147 → PageValidated ws (validatePage ws)) ∧
  (∀ ws : List Word,
    let t := Settings.ofWords ws
    [t.tag, t.kp, t.ki, t.vlim, t.kemf, t.magnetizingTime, t.kps, t.kis, t.acceleration,
      t.deceleration, t.breakawayCode, t.stopRamp, t.shareA, t.gearTripLevel, t.gearPersistence,
      t.thermalShift, t.thermalStart, t.thermalTrip, t.highPass, t.windowCode, t.alertPersistence,
      t.dangerPersistence, t.preTrip, t.postTrip, t.linkTolerance, t.mismatchPersistence] =
      [0x000, 0x002, 0x004, 0x006, 0x008, 0x00C, 0x00E, 0x010, 0x014, 0x016, 0x022, 0x024, 0x026, 0x02E,
        0x030, 0x032, 0x034, 0x036, 0x038, 0x03A, 0x03E, 0x040, 0x042, 0x044, 0x046, 0x04A].map
        (copyNat ws) ∧
    [t.fluxRef, t.maxSpeed, t.creep, t.standstill, t.motoringLimit, t.regeneratingLimit,
      t.breakawayLimit, t.capMotoring, t.capRegenerating, t.mismatchTolerance] ++ t.edges =
      [0x00A, 0x012, 0x018, 0x01A, 0x01C, 0x01E, 0x020, 0x02A, 0x02C, 0x048, 0x050, 0x052, 0x054, 0x056,
        0x058, 0x05A, 0x05C].map (copyInt ws) ∧
    [t.enableSet, t.escalation, t.classChoices] = [0x03C, 0x04C, 0x04E].map (copyWord ws) ∧
    (t.singleAllowed = true ↔ copyNat ws 0x028 = 1) ∧
    (∀ g : VibGroup,
      let o := 0x05E + 10 * g.number
      t.groups.get g =
        { margin := copyNat ws o, alertFactor := copyNat ws (o + 2), dangerFactor := copyNat ws (o + 4)
          lostFactor := copyNat ws (o + 6), holdCode := copyNat ws (o + 8) }) ∧
    (∀ (b : Nat) (g : VibGroup), b < 8 →
      let o := 0x086 + 16 * b + 4 * g.number
      Settings.thresholdsOf t b g = { alert := copyNat ws o, danger := copyNat ws (o + 2) }) ∧
    ∀ c : Accel, t.selftest.get c =
      { low := copyNat ws (0x106 + 4 * c.number), high := copyNat ws (0x108 + 4 * c.number) }) ∧
  ∀ (n : CellId) (s : State) (rest : List Work), s.agenda = .order .applySettings n :: rest →
    Memory.wf s.part.exch.mem = true →
    ∃ q, exec (.applySettings n) s = .next (drain { s with agenda := rest, part := q }) ∧
      match pageArgument (cellArg s.part n 0) with
      | none => OrderRefused n .badArgument [] s.part q
      | some (page, base) =>
        if s.part.orders.selftest.isSome then OrderRefused n .busy [] s.part q
        else
          let v := validatePage (readWords s.part.exch.mem base 147)
          let count := if s.part.orders.applyCount = 65535 then 1 else s.part.orders.applyCount + 1
          (∀ off ∈ v.fails, (∀ x ∈ v.fails, off ≤ x) →
            OrderRefused n .badSettings [wordOfNat off] s.part q) ∧
          (v.fails = [] →
            OrderAnswered n (if v.clamps = [] then .ok else .appliedWithClamps)
              [wordOfNat v.clamps.length, wordOfNat (v.clamps.headD 0), copyWord v.copy 0,
                wordOfNat count] s.part q ∧
            q.orders = { s.part.orders with
              taken := s.part.orders.taken + 1#32, settings := Settings.ofWords v.copy
              settingsApplied := true, activePage := page, applyCount := count } ∧
            q.seq = { s.part.seq with
              setpoint := if copyInt v.copy 0x012 < s.part.seq.setpoint then copyInt v.copy 0x012
                else s.part.seq.setpoint } ∧
            Part.keeps [.exch, .attn, .orders, .seq] s.part q)

/-- Of nine words, validation fails the rated current and the overcurrent threshold below 1, IQLIM below 0
and the counts per revolution below 256, clamps IQLIM to the overcurrent threshold when above it and
changes nothing else. APPLY_RATINGS, when due: refused NOT_IDLE unless the group is IDLE and no RUN is in
flight; a copy with a failing field is refused BAD_SETTINGS with the lowest failing offset; otherwise the
clamped copy becomes the active ratings, the ratings-applied flag becomes 1 and the cell is finished with
the count and first offset of the clamped fields. Nothing else changes. (R17, R44) -/
def Obligations.ApplyRatingsOrder : Prop :=
  (∀ ws : List Word, ws.length = 9 →
    let v := validateRatings ws
    let above : Prop := copyInt ws 0x002 < copyInt ws 0x004
    (∀ off, off ∈ v.fails ↔
      (off = 0x000 ∧ copyInt ws 0x000 < 1) ∨ (off = 0x002 ∧ copyInt ws 0x002 < 1) ∨
      (off = 0x004 ∧ copyInt ws 0x004 < 0) ∨ (off = 0x00C ∧ copyNat ws 0x00C < 256)) ∧
    (above → v.copy = ws.set 2 (copyWord ws 0x002) ∧ v.clamps = [0x004]) ∧
    (¬ above → v.copy = ws ∧ v.clamps = [])) ∧
  ∀ (n : CellId) (s : State) (rest : List Work), s.agenda = .order .applyRatings n :: rest →
    Memory.wf s.part.exch.mem = true →
    ∃ q, exec (.applyRatings n) s = .next (drain { s with agenda := rest, part := q }) ∧
      if s.part.seq.group ≠ .idle ∨ s.part.orders.run.isSome then
        OrderRefused n .notIdle [] s.part q
      else
        let v := validateRatings (readWords s.part.exch.mem 0x3000 9)
        (∀ off ∈ v.fails, (∀ x ∈ v.fails, off ≤ x) →
          OrderRefused n .badSettings [wordOfNat off] s.part q) ∧
        (v.fails = [] →
          OrderAnswered n (if v.clamps = [] then .ok else .appliedWithClamps)
            [wordOfNat v.clamps.length, wordOfNat (v.clamps.headD 0)] s.part q ∧
          q.orders = { s.part.orders with
            taken := s.part.orders.taken + 1#32, ratingsApplied := true
            ratings :=
              { ratedCurrent := copyInt v.copy 0x000, overcurrent := copyInt v.copy 0x002
                iqLimit := copyInt v.copy 0x004, kti := copyNat v.copy 0x006, kit := copyNat v.copy 0x008
                kslip := copyNat v.copy 0x00A, countsPerRev := copyNat v.copy 0x00C
                kang := copyNat v.copy 0x00E, kspd := copyNat v.copy 0x010 } } ∧
          Part.keeps [.exch, .attn, .orders] s.part q)

/-- RUN, when due, is refused by the first check of R18 that fails, in the order R18 lists them; with the
group RUNNING and every named motor RUNNING it finishes ALREADY; otherwise each named motor that is
STOPPED goes to MAGNETIZING with step count 0 and id_ref 0, the cell is TAKEN and the RUN entry names it.
Nothing else changes. A motor under no trip ramp has the trip-ramp value 0 (log 35). (R18, R99, R113) -/
def Obligations.RunOrder : Prop :=
  ∀ (n : CellId) (s : State) (rest : List Work), s.agenda = .order .run n :: rest →
    Memory.wf s.part.exch.mem = true →
    ∃ q, exec (.run n) s = .next (drain { s with agenda := rest, part := q }) ∧
      match motorSetArgument (cellArg s.part n 0) with
      | none => OrderRefused n .badArgument [] s.part q
      | some set =>
        let named := fun f : Motor → Prop => ∃ m, set.get m = true ∧ f m
        if s.part.orders.run.isSome ∨ s.part.orders.stop.isSome ∨ s.part.orders.selftest.isSome then
          OrderRefused n .busy [] s.part q
        else if s.part.orders.settingsApplied = false then OrderRefused n .noSettings [] s.part q
        else if s.part.orders.ratingsApplied = false then OrderRefused n .noRatings [] s.part q
        else
          (((∃ l ∈ s.part.trip.latched, l.cause.owner = none) ∨
              named (fun m => ∃ l ∈ s.part.trip.latched, l.cause.owner = some m)) →
            OrderRefused n .tripLatched [] s.part q) ∧
          (¬ ((∃ l ∈ s.part.trip.latched, l.cause.owner = none) ∨
              named (fun m => ∃ l ∈ s.part.trip.latched, l.cause.owner = some m)) →
            if s.part.seq.group ≠ .idle ∧ s.part.seq.group ≠ .running then
              OrderRefused n .notIdle [] s.part q
            else
              (named (fun m => s.part.motorState m = .out) →
                OrderRefused n .motorOut [] s.part q) ∧
              (¬ named (fun m => s.part.motorState m = .out) →
                (named (fun m => (s.part.links.get m).state ≠ .up) →
                  OrderRefused n .linkNotUp [] s.part q) ∧
                (¬ named (fun m => (s.part.links.get m).state ≠ .up) →
                  if s.part.seq.group = .idle ∧ ¬ (set.a = true ∧ set.b = true) ∧
                      s.part.settings.singleAllowed = false then
                    OrderRefused n .badArgument [] s.part q
                  else
                    ((s.part.seq.group = .idle ∧ named (fun m => s.part.motorState m ≠ .stopped)) ∨
                      (s.part.seq.group = .running ∧ named (fun m =>
                        s.part.motorState m ≠ .stopped ∧ s.part.motorState m ≠ .running)) →
                      OrderRefused n .notIdle [] s.part q) ∧
                    (s.part.seq.group = .running ∧ (∀ m, set.get m = true →
                        s.part.motorState m = .running) →
                      OrderAnswered n .already [] s.part q ∧
                      q.orders = { s.part.orders with taken := s.part.orders.taken + 1#32 } ∧
                      Part.keeps [.exch, .attn, .orders] s.part q) ∧
                    ((s.part.seq.group = .idle ∧
                        (∀ m, set.get m = true → s.part.motorState m = .stopped)) ∨
                      (s.part.seq.group = .running ∧
                        (∀ m, set.get m = true →
                          s.part.motorState m = .stopped ∨ s.part.motorState m = .running) ∧
                        named (fun m => s.part.motorState m = .stopped)) →
                      OrderAccepted n s.part q ∧
                      (∀ m, q.seq.motor.get m =
                        if set.get m = true ∧ s.part.motorState m = .stopped then
                          { state := .magnetizing, stepCount := 0, idRef := 0, ramp := 0, ramping := false }
                        else s.part.seq.motor.get m) ∧
                      q.seq = { s.part.seq with motor := q.seq.motor } ∧
                      q.orders = { s.part.orders with
                        taken := s.part.orders.taken + 1#32
                        run := some
                          { cell := n, named := set
                            joining :=
                              { a := set.a && s.part.motorState .a == .stopped
                                b := set.b && s.part.motorState .b == .stopped } } } ∧
                      Part.keeps [.exch, .orders, .seq] s.part q))))

/-- STOP, when due: with a STOP in flight, or with no RUN in flight and the group IDLE, STOPPING or TRIPPED,
it finishes ALREADY and changes nothing else. Otherwise a RUN in flight is finished SUPERSEDED. A
STARTING or RUNNING group goes to STOPPING with its RUNNING motors, its MAGNETIZING motors go to STOPPED,
the breakaway allowance is discarded, and the cell is TAKEN and attached to the STOP entry. In an IDLE
group the MAGNETIZING motors go to STOPPED and the cell is finished OK at once; in a STOPPING or TRIPPED
one the cell is TAKEN and attached alone. A motor under no trip ramp has the trip-ramp value 0 (log 35).
(R19, R106) -/
def Obligations.StopOrder : Prop :=
  ∀ (n : CellId) (s : State) (rest : List Work), s.agenda = .order .stop n :: rest →
    Memory.wf s.part.exch.mem = true →
    ∃ q, exec (.stop n) s = .next (drain { s with agenda := rest, part := q }) ∧
      (s.part.orders.stop.isSome ∨ (s.part.orders.run = none ∧
          (s.part.seq.group = .idle ∨ s.part.seq.group = .stopping ∨ s.part.seq.group = .tripped)) →
        OrderAnswered n .already [] s.part q ∧
        q.orders = { s.part.orders with taken := s.part.orders.taken + 1#32 } ∧
        Part.keeps [.exch, .attn, .orders] s.part q) ∧
      (s.part.orders.stop = none →
        (s.part.seq.group = .starting ∨ s.part.seq.group = .running) →
        (∀ r, s.part.orders.run = some r → r.cell ≠ n →
          CellFinished r.cell .superseded [] s.part q) ∧
        readWord q.exch.mem (cellOffset n) = cellTaken ∧
        CellTakenAt n s.part q ∧
        q.seq =
          { s.part.seq with group := .stopping, allowance := none, motor := q.seq.motor } ∧
        (∀ m, q.seq.motor.get m =
          match s.part.motorState m with
          | .running => { s.part.seq.motor.get m with state := .stopping, ramp := 0, ramping := false }
          | .magnetizing => { s.part.seq.motor.get m with state := .stopped, idRef := 0, ramp := 0, ramping := false }
          | .stopped | .stopping | .tripped | .out => s.part.seq.motor.get m) ∧
        q.orders = { s.part.orders with
          taken := s.part.orders.taken + 1#32, run := none, stop := some n } ∧
        Part.storesOnly (fun a => cellAnswerByte n a ∨
          ∃ r, s.part.orders.run = some r ∧ cellAnswerByte r.cell a) s.part q ∧
        Part.raisesOnly (if s.part.orders.run.isSome then [.order] else []) s.part q ∧
        Part.keeps [.exch, .attn, .orders, .seq] s.part q) ∧
      (∀ r, s.part.orders.stop = none → s.part.orders.run = some r → r.cell ≠ n →
        (s.part.seq.group = .stopping ∨ s.part.seq.group = .tripped) →
        CellFinished r.cell .superseded [] s.part q ∧
        readWord q.exch.mem (cellOffset n) = cellTaken ∧ CellTakenAt n s.part q ∧
        q.orders = { s.part.orders with
          taken := s.part.orders.taken + 1#32, run := none, stop := some n } ∧
        Part.storesOnly (fun a => cellAnswerByte n a ∨ cellAnswerByte r.cell a) s.part q ∧
        Part.raisesOnly [.order] s.part q ∧
        Part.keeps [.exch, .attn, .orders] s.part q) ∧
      (s.part.orders.stop = none → s.part.seq.group = .idle →
        ∀ r, s.part.orders.run = some r → r.cell ≠ n →
          CellFinished r.cell .superseded [] s.part q ∧
          CellFinished n .ok [] s.part q ∧ CellTakenAt n s.part q ∧
          q.seq = { s.part.seq with motor := q.seq.motor } ∧
          (∀ m, q.seq.motor.get m =
            match s.part.motorState m with
            | .magnetizing => { s.part.seq.motor.get m with state := .stopped, idRef := 0, ramp := 0, ramping := false }
            | .stopped | .running | .stopping | .tripped | .out => s.part.seq.motor.get m) ∧
          q.orders = { s.part.orders with
            taken := s.part.orders.taken + 1#32, run := none, stop := none } ∧
          Part.storesOnly (fun a => cellAnswerByte n a ∨ cellAnswerByte r.cell a) s.part q ∧
          Part.raisesOnly [.order] s.part q ∧
          Part.keeps [.exch, .attn, .orders, .seq] s.part q)

/-- HALT, when due: a method other than 1 or 2 is refused BAD_ARGUMENT. Otherwise a RUN in flight is finished
SUPERSEDED. If HALT is not latched it is latched with class INHIBIT_ALL or RAMP_ALL, the sequence number
goes up by one, the sequencer takes the order of that class, a STOP in flight is finished
ABORTED_BY_TRIP, the record writer opens a record in the lowest FREE slot, notes a follow-on or counts
the trip unrecorded, TRIP is raised, the routing and the sources but TRIP, ORDER and RECORD are kept, and
the cell is finished OK. If it is latched RAMP_ALL and the method asks for INHIBIT, its class becomes
INHIBIT_ALL and the sequencer takes an INHIBIT_ALL order, without a trip event. Otherwise the cell
finishes ALREADY. Result value 0 is the class HALT then has. (R20, R160, R158, R168, R171, R172) -/
def Obligations.HaltOrder : Prop :=
  ∀ (n : CellId) (s : State) (rest : List Work), s.agenda = .order .halt n :: rest →
    Memory.wf s.part.exch.mem = true →
    ∃ q, exec (.halt n) s = .next (drain { s with agenda := rest, part := q }) ∧
      (haltMethod (cellArg s.part n 0) = none → OrderRefused n .badArgument [] s.part q) ∧
      (∀ cls, haltMethod (cellArg s.part n 0) = some cls →
        (∀ r, s.part.orders.run = some r → r.cell ≠ n ∧ s.part.orders.stop ≠ some r.cell) →
        (∀ r, s.part.orders.run = some r → CellFinished r.cell .superseded [] s.part q) ∧
        CellTakenAt n s.part q ∧
        (latchedClass s.part.trip.latched .halt = none →
          q.trip.latched = latchInto { cause := .halt, cls } s.part.trip.latched ∧
          q.trip.sequence = s.part.trip.sequence + 1#16 ∧
          q.seq = (if cls = .inhibitAll then inhibitAllOrder s.part else rampAllOrder s.part).seq ∧
          q.orders = { s.part.orders with
            taken := s.part.orders.taken + 1#32, run := none, stop := none } ∧
          TripRecorded .halt cls s.part q ∧
          (∀ e, q.cap.get e =
            if (s.part.cap.get e).state = .armed ∧ (s.part.cap.get e).start = .onTrip then
              { s.part.cap.get e with state := .running }
            else s.part.cap.get e) ∧
          q.raised .trip = true ∧ q.raised .order = true ∧
          q.attn.routing = s.part.attn.routing ∧
          (∀ src, src ≠ .trip → src ≠ .order → src ≠ .record → q.raised src = s.part.raised src) ∧
          CellFinished n .ok [wordOfNat cls.code] s.part q ∧
          (∀ k, s.part.orders.stop = some k → k ≠ n → CellFinished k .abortedByTrip [] s.part q) ∧
          Part.storesOnly (fun a => cellAnswerByte n a ∨ tripByte s.part a) s.part q ∧
          Part.keeps [.exch, .attn, .orders, .seq, .trip, .cap] s.part q) ∧
        (∀ old, latchedClass s.part.trip.latched .halt = some old →
          Part.storesOnly (fun a => cellAnswerByte n a ∨
            ∃ r, s.part.orders.run = some r ∧ cellAnswerByte r.cell a) s.part q ∧
          Part.raisesOnly [.order] s.part q ∧
          q.orders = { s.part.orders with taken := s.part.orders.taken + 1#32, run := none } ∧
          (old = .rampAll ∧ cls = .inhibitAll →
            q.trip = { s.part.trip with
              latched := latchInto { cause := .halt, cls := .inhibitAll } s.part.trip.latched } ∧
            q.seq = (inhibitAllOrder s.part).seq ∧
            CellFinished n .ok [1#16] s.part q ∧
            Part.keeps [.exch, .attn, .orders, .seq, .trip] s.part q) ∧
          (¬ (old = .rampAll ∧ cls = .inhibitAll) →
            CellFinished n .already [wordOfNat old.code] s.part q ∧
            Part.keeps [.exch, .attn, .orders] s.part q)))

/-- SET_SPEED, when due: refused NO_SETTINGS before settings are applied; otherwise a negative argument is
stored as 0, one above the maximum speed of the active settings as that maximum, any other as given; the
cell is finished CLAMPED if the stored value differs from the argument and OK if not, with the stored
value. Nothing else changes. (R21) -/
def Obligations.SetSpeedOrder : Prop :=
  ∀ (n : CellId) (s : State) (rest : List Work), s.agenda = .order .setSpeed n :: rest →
    Memory.wf s.part.exch.mem = true →
    ∃ q, exec (.setSpeed n) s = .next (drain { s with agenda := rest, part := q }) ∧
      if s.part.orders.settingsApplied = false then OrderRefused n .noSettings [] s.part q
      else
        let asked := (cellArg s.part n 0).toInt
        let stored := if asked < 0 then 0
          else if s.part.settings.maxSpeed < asked then s.part.settings.maxSpeed else asked
        OrderAnswered n (if stored = asked then .ok else .clamped) [wordOf stored] s.part q ∧
        q.seq = { s.part.seq with setpoint := stored } ∧
        q.orders = { s.part.orders with taken := s.part.orders.taken + 1#32 } ∧
        Part.keeps [.exch, .attn, .orders, .seq] s.part q

/-- The condition of each cause is as the cause table gives it (THERMAL, OVERSPEED and SPEED_MISMATCH as log
24 says), and the set of conditions holds each at its number. CLEAR_TRIP, when due: a scope other than 1
to 4 is refused BAD_ARGUMENT; otherwise a latched cause stays, with its class, unless it is in scope and
its condition is absent. The cell is finished OK if no cause in scope is left and STILL_PRESENT if some
are, with the set of those left as a 32-bit value. No attention but ORDER, no trip order and no other
change follows. (R22, R163, R162) -/
def Obligations.ClearTripOrder : Prop :=
  (∀ p : Part,
    (∀ m : Motor,
      conditionPresent p (.overcurrent m) = false ∧
      (conditionPresent p (.inverterFault m) = true ↔ (p.links.get m).status = .fault) ∧
      (conditionPresent p (.linkLost m) = true ↔ (p.links.get m).state ≠ .up) ∧
      (conditionPresent p (.currentSensorLost m) = true ↔
        ∃ k, k < 2 ∧ (p.acq.scan.getD ((match m with | .a => 0 | .b => 2) + k)
          { value := 0, mark := .valid }).mark ≠ .valid) ∧
      (conditionPresent p (.encoderLost m) = true ↔ (p.acq.enc.get m).valid = false) ∧
      (conditionPresent p (.thermal m) = true ↔
        p.settings.thermalStart ≤ (p.allot.motor.get m).thermalH / 65536)) ∧
    conditionPresent p .speedMismatch = p.acq.mismatchPresent ∧
    (conditionPresent p .overspeed = true ↔ 0 < p.acq.overspeedRun) ∧
    (∀ g, conditionPresent p (.vibDanger g) = true ↔ (p.vib.group.get g).state = .danger) ∧
    conditionPresent p .external = p.pins.tripIn ∧
    conditionPresent p .gearOverload = false ∧ conditionPresent p .failedStart = false ∧
    conditionPresent p .halt = false ∧
    (∀ c : Cause, (conditionBits p).getLsbD c.number = conditionPresent p c) ∧
    (∀ (ls : List Latched) (c : Cause), (latchedBits ls).getLsbD c.number = isLatched ls c)) ∧
  ∀ (n : CellId) (s : State) (rest : List Work), s.agenda = .order .clearTrip n :: rest →
    Memory.wf s.part.exch.mem = true →
    ∃ q, exec (.clearTrip n) s = .next (drain { s with agenda := rest, part := q }) ∧
      match clearScope (cellArg s.part n 0) with
      | none => OrderRefused n .badArgument [] s.part q
      | some scope =>
        let inScope := fun l : Latched => match scope with
          | .motor m => l.cause.owner == some m
          | .groupCauses => l.cause.owner == none
          | .every => true
        (∀ l, l ∈ q.trip.latched ↔
          l ∈ s.part.trip.latched ∧ (inScope l = false ∨ conditionPresent s.part l.cause = true)) ∧
        q.trip = { s.part.trip with latched := q.trip.latched } ∧
        OrderAnswered n
          (if q.trip.latched.filter inScope = [] then .ok else .stillPresent)
          (wordsOf32 (latchedBits (q.trip.latched.filter inScope))) s.part q ∧
        q.orders = { s.part.orders with taken := s.part.orders.taken + 1#32 } ∧
        Part.keeps [.exch, .attn, .orders, .trip] s.part q

/-- MOTOR_OUT, when due: finishes ALREADY for a motor that is OUT, is refused NOT_IDLE unless the group is
IDLE or TRIPPED and the motor STOPPED or TRIPPED, and otherwise the motor goes OUT with id_ref 0, no ramp
(its value then 0: log 35) and its invalid-speed and invalid-sample runs at 0. No cause is removed, the
group keeps its state and nothing else changes. MOTOR_IN, when due: finishes ALREADY for a motor that is
not OUT, is refused NOT_IDLE unless the group is IDLE and TRIP_LATCHED while a cause of the motor is
latched, and otherwise the motor goes to STOPPED, under no trip ramp (its value then 0: log 35). The
group keeps its state and nothing else changes. (R23, R114, R55, R67) -/
def Obligations.MotorOutAndInOrders : Prop :=
  (∀ (n : CellId) (s : State) (rest : List Work), s.agenda = .order .motorOut n :: rest →
    Memory.wf s.part.exch.mem = true →
    ∃ q, exec (.motorOut n) s = .next (drain { s with agenda := rest, part := q }) ∧
      match motorArgument (cellArg s.part n 0) with
      | none => OrderRefused n .badArgument [] s.part q
      | some m =>
        if s.part.motorState m = .out then
          OrderAnswered n .already [] s.part q ∧
          q.orders = { s.part.orders with taken := s.part.orders.taken + 1#32 } ∧
          Part.keeps [.exch, .attn, .orders] s.part q
        else if (s.part.seq.group ≠ .idle ∧ s.part.seq.group ≠ .tripped) ∨
            (s.part.motorState m ≠ .stopped ∧ s.part.motorState m ≠ .tripped) then
          OrderRefused n .notIdle [] s.part q
        else
          let moved := { s.part.seq.motor.get m with state := .out, idRef := 0, ramp := 0, ramping := false }
          OrderAnswered n .ok [] s.part q ∧
          q.seq = { s.part.seq with motor := s.part.seq.motor.set m moved } ∧
          q.orders = { s.part.orders with taken := s.part.orders.taken + 1#32 } ∧
          (let e := { s.part.acq.enc.get m with invalidRun := 0 }
          q.acq = { s.part.acq with enc := s.part.acq.enc.set m e }) ∧
          q.ctl = s.part.ctl.set m { s.part.ctl.get m with runA := 0, runB := 0 } ∧
          Part.keeps [.exch, .attn, .orders, .seq, .acq, .ctl] s.part q) ∧
  (∀ (n : CellId) (s : State) (rest : List Work), s.agenda = .order .motorIn n :: rest →
    Memory.wf s.part.exch.mem = true →
    ∃ q, exec (.motorIn n) s = .next (drain { s with agenda := rest, part := q }) ∧
      match motorArgument (cellArg s.part n 0) with
      | none => OrderRefused n .badArgument [] s.part q
      | some m =>
        if s.part.motorState m ≠ .out then
          OrderAnswered n .already [] s.part q ∧
          q.orders = { s.part.orders with taken := s.part.orders.taken + 1#32 } ∧
          Part.keeps [.exch, .attn, .orders] s.part q
        else if s.part.seq.group ≠ .idle then
          OrderRefused n .notIdle [] s.part q
        else
          ((∃ l ∈ s.part.trip.latched, l.cause.owner = some m) →
            OrderRefused n .tripLatched [] s.part q) ∧
          ((∀ l ∈ s.part.trip.latched, l.cause.owner ≠ some m) →
          let moved := { s.part.seq.motor.get m with state := .stopped, idRef := 0, ramp := 0, ramping := false }
          OrderAnswered n .ok [] s.part q ∧
          q.seq = { s.part.seq with motor := s.part.seq.motor.set m moved } ∧
          q.orders = { s.part.orders with taken := s.part.orders.taken + 1#32 } ∧
          Part.keeps [.exch, .attn, .orders, .seq] s.part q))

/-- CAPTURE, when due: arguments outside those listed are refused BAD_ARGUMENT; then the checks of R24 in
their order (BUSY, BAD_REGION, OVERLAP, NOTHING_TO_FOLLOW) decide a refusal; an accepted capture sets the
engine RUNNING for IMMEDIATE and ARMED for ON_TRIP and AFTER_OTHER, with everything it counts at 0 or
none and all its blocks remaining, and attaches the TAKEN cell to the engine. Nothing else changes. (R24,
R177) -/
def Obligations.CaptureOrder : Prop :=
  ∀ (n : CellId) (s : State) (rest : List Work), s.agenda = .order .capture n :: rest →
    Memory.wf s.part.exch.mem = true →
    ∃ q, exec (.capture n) s = .next (drain { s with agenda := rest, part := q }) ∧
      let engine := (cellArg s.part n 0).toNat
      let channel := (cellArg s.part n 1).toNat
      let blocks := (cellArg s.part n 2).toNat
      let base := (cellArg s.part n 3).toNat + 65536 * (cellArg s.part n 4).toNat
      let limit := (cellArg s.part n 5).toNat + 65536 * (cellArg s.part n 6).toNat
      let start := (cellArg s.part n 7).toNat
      let last := base + blocks * 512 - 1
      (1 < engine ∨ 13 < channel ∨ blocks = 0 ∨ 96 < blocks ∨ start = 0 ∨ 3 < start →
        OrderRefused n .badArgument [] s.part q) ∧
      (∀ e : EngineId, engine = (match e with | .e0 => 0 | .e1 => 1) →
        channel ≤ 13 → 1 ≤ blocks → blocks ≤ 96 → 1 ≤ start → start ≤ 3 →
        let other := s.part.cap.get e.other
        if (s.part.cap.get e).state ≠ .idle then OrderRefused n .busy [] s.part q
        else if base % 512 ≠ 0 ∨ base < 0x4000 ∨ 0x10000 ≤ base ∨ limit < last ∨ 0xFFFF < last then
          OrderRefused n .badRegion [] s.part q
        else if other.state ≠ .idle ∧ base < other.base + other.requested * 512 ∧ other.base ≤ last then
          OrderRefused n .overlap [] s.part q
        else if start = 3 ∧ (other.state = .idle ∨ (other.state = .armed ∧ other.start = .afterOther)) then
          OrderRefused n .nothingToFollow [] s.part q
        else
          OrderAccepted n s.part q ∧
          q.cap = s.part.cap.set e
            { state := if start = 1 then .running else .armed
              channel, base, requested := blocks
              start := if start = 1 then .immediate else if start = 2 then .onTrip else .afterOther
              written := 0, remaining := blocks, block := [], notes := [], rangeCount := 0
              lateCount := 0, firstInvalid := none, firstTime := none } ∧
          q.orders = { s.part.orders with
            taken := s.part.orders.taken + 1#32
            capture := s.part.orders.capture.set e (some n) } ∧
          Part.keeps [.exch, .orders, .cap] s.part q)

/-- CAPTURE_CANCEL, when due: an engine argument other than 0 or 1 is refused BAD_ARGUMENT; an IDLE engine
finishes it ALREADY; otherwise the engine goes IDLE with its open block discarded, its cell is finished
CANCELLED with the result values of its written blocks, an engine waiting on it goes IDLE with its cell
finished ABORTED_UPSTREAM and all values 0, and the cancel cell is finished OK with the blocks written
(for the cells of the entries distinct). That the first-sample time of a capture cancelled before its
first block was written is among its values is the model's choice (log 39). (R25, R184, R181, R185) -/
def Obligations.CaptureCancelOrder : Prop :=
  ∀ (n : CellId) (s : State) (rest : List Work), s.agenda = .order .captureCancel n :: rest →
    Memory.wf s.part.exch.mem = true →
    ∃ q, exec (.captureCancel n) s = .next (drain { s with agenda := rest, part := q }) ∧
      (∀ e, engineArgument (cellArg s.part n 0) = some e →
        ((s.part.cap.get e).state = .idle →
          OrderAnswered n .already [] s.part q ∧
          q.orders = { s.part.orders with taken := s.part.orders.taken + 1#32 } ∧
          Part.keeps [.exch, .attn, .orders] s.part q) ∧
        ((s.part.cap.get e).state ≠ .idle →
          let old := s.part.cap.get e
          let other := s.part.cap.get e.other
          let follows : Bool := other.state == .armed && other.start == .afterOther
          CellFinished n .ok [wordOfNat old.written] s.part q ∧ CellTakenAt n s.part q ∧
          q.cap.get e = { old with state := .idle, remaining := 0, block := [], notes := [] } ∧
          q.cap.get e.other =
            (if follows then
              { other with state := .idle, remaining := 0, block := [], notes := [], written := 0 }
            else other) ∧
          (∀ k, s.part.orders.capture.get e = some k → k ≠ n →
            (follows = true → s.part.orders.capture.get e.other ≠ some k) →
            CellFinished k .cancelled (captureResults old) s.part q) ∧
          (∀ k, follows = true → s.part.orders.capture.get e.other = some k → k ≠ n →
            CellFinished k .abortedUpstream [] s.part q) ∧
          q.orders.capture.get e = none ∧
          q.orders.capture.get e.other =
            (if follows then none else s.part.orders.capture.get e.other) ∧
          q.orders = { s.part.orders with
            taken := s.part.orders.taken + 1#32, capture := q.orders.capture } ∧
          Part.raisesOnly [.order] s.part q ∧
          Part.storesOnly (fun a => cellAnswerByte n a ∨
            ∃ i k, s.part.orders.capture.get i = some k ∧ cellAnswerByte k a) s.part q ∧
          Part.keeps [.exch, .attn, .orders, .cap] s.part q)) ∧
      (engineArgument (cellArg s.part n 0) = none → OrderRefused n .badArgument [] s.part q)

/-- VIB_SELFTEST, when due: BUSY with a self-test or RUN in flight, NO_SETTINGS before settings are applied,
NOT_IDLE unless the group is IDLE; otherwise the test set is the channels that the active settings enable
(also where an apply has not reached the watch's channels yet: the model's choice, log 15), their windows
and runs are cleared with level, state and filter kept, their test lines and no others are asserted, the
test settles with count 0 and the TAKEN cell is attached to it. Nothing else changes. (R26, R148, R60) -/
def Obligations.VibSelftestOrder : Prop :=
  ∀ (n : CellId) (s : State) (rest : List Work), s.agenda = .order .vibSelftest n :: rest →
    Memory.wf s.part.exch.mem = true →
    ∃ q, exec (.vibSelftest n) s = .next (drain { s with agenda := rest, part := q }) ∧
      if s.part.orders.selftest.isSome ∨ s.part.orders.run.isSome then
        OrderRefused n .busy [] s.part q
      else if s.part.orders.settingsApplied = false then OrderRefused n .noSettings [] s.part q
      else if s.part.seq.group ≠ .idle then OrderRefused n .notIdle [] s.part q
      else
        OrderAccepted n s.part q ∧
        (∃ test, q.vib.test = some test ∧ test.phase = .settling ∧ test.count = 0 ∧
          ∀ c, test.set.get c = s.part.settings.enables c) ∧
        (∀ c, q.vib.channel.get c =
          if s.part.settings.enables c then
            { s.part.vib.channel.get c with
              accumulator := 0, samples := 0, invalid := 0, alertRun := 0, dangerRun := 0 }
          else s.part.vib.channel.get c) ∧
        q.vib = { s.part.vib with channel := q.vib.channel, test := q.vib.test } ∧
        (∀ c, testLine q c = s.part.settings.enables c) ∧
        q.acq = { s.part.acq with testLines := q.acq.testLines } ∧
        q.orders = { s.part.orders with
          taken := s.part.orders.taken + 1#32, selftest := some n } ∧
        Part.keeps [.exch, .orders, .vib, .acq] s.part q

/-- LINK_TEST, when due: an argument other than 1 or 2 is refused BAD_ARGUMENT, a link not UP LINK_NOT_UP, a
filled entry BUSY; otherwise the test becomes pending on that link and the TAKEN cell is attached to it.
Nothing else changes. (R27, R92) -/
def Obligations.LinkTestOrder : Prop :=
  ∀ (n : CellId) (s : State) (rest : List Work), s.agenda = .order .linkTest n :: rest →
    Memory.wf s.part.exch.mem = true →
    ∃ q, exec (.linkTest n) s = .next (drain { s with agenda := rest, part := q }) ∧
      match motorArgument (cellArg s.part n 0) with
      | none => OrderRefused n .badArgument [] s.part q
      | some m =>
        if (s.part.links.get m).state ≠ .up then OrderRefused n .linkNotUp [] s.part q
        else if (s.part.orders.linkTest.get m).isSome then OrderRefused n .busy [] s.part q
        else
          OrderAccepted n s.part q ∧
          q.links = s.part.links.set m { s.part.links.get m with testPending := true } ∧
          q.orders = { s.part.orders with
            taken := s.part.orders.taken + 1#32
            linkTest := s.part.orders.linkTest.set m (some n) } ∧
          Part.keeps [.exch, .orders, .links] s.part q

/-- LINK_RESET, when due: an argument other than 1 or 2 is refused BAD_ARGUMENT; refused NOT_IDLE unless the
motor is STOPPED, TRIPPED or OUT; otherwise the link goes to SYNCING with sync run and loss count 0, its
window and a pending test dropped, everything else of it kept, LINK raised from UP and from LOST only; a
LINK_TEST entry of that link is emptied and its cell finished CANCELLED with result value 0 set to 3 (log
22: also for a test already sent), and the cell finishes OK. The other link is untouched. (R28, R93) -/
def Obligations.LinkResetOrder : Prop :=
  ∀ (n : CellId) (s : State) (rest : List Work), s.agenda = .order .linkReset n :: rest →
    Memory.wf s.part.exch.mem = true →
    ∃ q, exec (.linkReset n) s = .next (drain { s with agenda := rest, part := q }) ∧
      match motorArgument (cellArg s.part n 0) with
      | none => OrderRefused n .badArgument [] s.part q
      | some m =>
        if s.part.motorState m ≠ .stopped ∧ s.part.motorState m ≠ .tripped ∧
            s.part.motorState m ≠ .out then OrderRefused n .notIdle [] s.part q
        else
          let old := s.part.links.get m
          CellFinished n .ok [] s.part q ∧ CellTakenAt n s.part q ∧
          (∀ k, s.part.orders.linkTest.get m = some k → k ≠ n →
            CellFinished k .cancelled [3#16] s.part q) ∧
          q.links = s.part.links.set m { old with
            state := .syncing, syncRun := 0, lossCount := 0, window := none, testPending := false } ∧
          q.orders = { s.part.orders with
            taken := s.part.orders.taken + 1#32, linkTest := s.part.orders.linkTest.set m none } ∧
          Part.raisesOnly (if old.state = .up ∨ old.state = .lost then [.link, .order] else [.order])
            s.part q ∧
          Part.storesOnly (fun a => cellAnswerByte n a ∨
            ∃ k, s.part.orders.linkTest.get m = some k ∧ cellAnswerByte k a) s.part q ∧
          Part.keeps [.exch, .attn, .orders, .links] s.part q

/-- For every command and every state, the step with that command at the front of the queue is exec of that
command on the state whose queue is the rest (the queue is the model's own, log 1).
(95_what_each_step_holds.md) -/
def Obligations.QueueFront : Prop :=
  ∀ (c : Instr) (rest : List Instr) (s : State),
    step { s with pending := c :: rest } = exec c { s with pending := rest }

/-- With no command waiting and nothing due, a step leaves the state as it is; with work due, the first piece
is done with what it brings about put in front, up to the next row of the table. Draining ends before a
row or with nothing due, keeps the queue, and changes nothing where a row stands in front. This is the
model's choice, logs 1 and 2. (95_what_each_step_holds.md) -/
def Obligations.IdleStep : Prop :=
  ∀ s : State, s.pending = [] →
    (s.agenda = [] → step s = .next s) ∧
    (∀ w rest, s.agenda = w :: rest →
      step s = .next (drain { s with
        agenda := (runWork w s.part).due ++ rest, part := (runWork w s.part).part })) ∧
    beforeRow (drain s).agenda = true ∧ (drain s).pending = s.pending ∧
    (beforeRow s.agenda = true → drain s = s)

/-- Every command, with every operand and in every state, answers a next state with the queue as it was: the
spec names no event that stops the part. (95_what_each_step_holds.md) -/
def Obligations.ExecAnswersNext : Prop :=
  ∀ (c : Instr) (s : State), ∃ t, exec c s = .next t ∧ t.pending = s.pending

/-- After reset the exchange memory is canonical, no routing field holds 3, the latched causes stand in
rising order and every bounded count is in its range. (R3, R9, R61, R174) -/
def Obligations.ResetMeetsInv : Prop :=
  State.reset.part.Inv

/-- From every state whose exchange memory is canonical (offsets rising, no byte 0 listed), a step answers a
state whose memory is canonical, whatever command or due work it runs. (R1, R13, R179, R168) -/
def Obligations.StepKeepsMemoryCanonical : Prop :=
  ∀ s t : State, s.part.memoryCanonical → step s = .next t → t.part.memoryCanonical

/-- From every state in which the counts that the spec bounds lie within their bounds (guard count, apply
count, period position, encoder runs, overspeed and mismatch runs, sensor runs, link counters,
magnetizing step counts, ramp remainder, thermal states, gear-overload run, alert and danger runs,
unrecorded trips, follow-ons, ring lengths), a step answers a state in which they do. (R2, R31, R52, R55,
R67, R82, R88, R100, R102, R125, R141, R171) -/
def Obligations.StepKeepsCounts : Prop :=
  ∀ s t : State, s.part.CountsInRange → step s = .next t → t.part.CountsInRange

/-- From every state in which no two-bit routing field holds 3, a step answers a state in which none does.
From every state in which the latched causes stand in strictly rising number, a step answers a state in
which they do: the set holds each cause at most once. (R9, R155) -/
def Obligations.StepKeepsRoutingAndLatched : Prop :=
  (∀ s t : State, s.part.attn.routingLegal → step s = .next t → t.part.attn.routingLegal) ∧
  (∀ s t : State, latchedAscending s.part.trip.latched → step s = .next t →
    latchedAscending t.part.trip.latched)

/-- In READY a host write is accepted exactly where the map, the cell state, the slot state and the capture
regions allow it. An accepted write replaces that word and no other byte. A dropped one adds one to the
guard count up to 65535, sets the last guarded offset and makes GUARD pending. Nothing else changes, and
no due work is touched. (R1, R2, R11, R173, R182) -/
def Obligations.HostWriteJudged : Prop :=
  ∀ (word : BitVec 16) (value : Word) (s : State), s.part.phase = .ready →
    Memory.wf s.part.exch.mem = true →
    let off := 2 * word.toNat
    let accepted : Prop :=
      (∃ (n : CellId) (k : Nat), k < 32 ∧ off = 0x100 + 0x40 * n.val + 2 * k ∧
        ((cellState s.part n = 0#16 ∧ (k = 0 → value = 0#16 ∨ value = 1#16)) ∨
          ((cellState s.part n = 3#16 ∨ cellState s.part n = 4#16) ∧ k = 0 ∧ value = 0#16))) ∨
      (0x1000 ≤ off ∧ off < 0x4000) ∨
      (0x4000 ≤ off ∧ off < 0x10000 ∧ ∀ e, (s.part.cap.get e).state ≠ .idle →
        off < (s.part.cap.get e).base ∨
          (s.part.cap.get e).base + 512 * (s.part.cap.get e).requested ≤ off) ∨
      (∃ x : SlotId, off = 0x10000 + 0x4000 * x.number ∧ value = 0#16 ∧ slotState s.part x = 2#16)
    ∃ q, exec (.hostWrite word value) s = .next { s with part := q } ∧
      (accepted →
        readWord q.exch.mem off = value ∧
        (∀ a, a ≠ off → a ≠ off + 1 → readByte q.exch.mem a = readByte s.part.exch.mem a) ∧
        q.exch.guardCount = s.part.exch.guardCount ∧
        q.exch.guardedOffset = s.part.exch.guardedOffset ∧
        Part.keeps [.exch] s.part q) ∧
      (¬ accepted →
        q.exch = { s.part.exch with
          guardCount := min 65535 (s.part.exch.guardCount + 1), guardedOffset := off } ∧
        Part.raisesOnly [.guard] s.part q ∧ Part.keeps [.exch, .attn] s.part q)

/-- A write to STATUS answers the state unchanged, in every phase. While the phase is STARTING, host writes
to exchange memory, to ATTENTION, to ROUTING and to CONTROL answer it unchanged too: nothing is stored,
acknowledged, routed, requested or counted. (R3, R7, R8, R9, R10) -/
def Obligations.IgnoredWrites : Prop :=
  (∀ (value : Word) (s : State), exec (.registerWriteIgnored value) s = .next s) ∧
  ∀ s : State, s.part.phase ≠ .ready →
    (∀ word value, exec (.hostWrite word value) s = .next s) ∧
    (∀ value, exec (.attentionAcknowledge value) s = .next s) ∧
    (∀ value, exec (.routingWrite value) s = .next s) ∧
    (∀ value, exec (.partResetRequest value) s = .next s)

/-- A host read drives the data bus and changes nothing else. In READY a memory read gives the word,
ATTENTION one bit for each pending source and ROUTING the routing; during STARTING all three give 0.
STATUS shows the phase in bit 15, the two applied flags in bits 14 and 13 and the frame count modulo 8192
below. CONTROL reads 0. (R1, R3, R7, R8, R9) -/
def Obligations.HostReadValue : Prop :=
  ∀ (target : ReadTarget) (s : State),
    ∃ v, exec (.hostRead target) s =
        .next { s with part := s.part.setPins { s.part.pins with hostData := v } } ∧
      match target with
      | .memory word =>
        v = if s.part.phase = .ready then readWord s.part.exch.mem (2 * word.toNat) else 0#16
      | .attention =>
        if s.part.phase = .ready then
          v.toNat < 256 ∧ ∀ src, v.getLsbD src.number = s.part.raised src
        else v = 0#16
      | .routing => v = if s.part.phase = .ready then s.part.attn.routing else 0#16
      | .control => v = 0#16
      | .status =>
        (v.getLsbD 15 = true ↔ s.part.phase = .ready) ∧
        v.getLsbD 14 = s.part.orders.settingsApplied ∧
        v.getLsbD 13 = s.part.orders.ratingsApplied ∧
        v.toNat % 8192 = s.part.acq.frameCount.toNat % 8192

/-- In READY a write to ATTENTION leaves a source pending exactly if it was pending and its bit is 0; bits 15
to 8 do nothing. A write to ROUTING stores each two-bit field, a 3 as 0, and keeps what is pending. From
then NOTE is asserted exactly while some pending source is routed to 1 and ALERT exactly while some is
routed to 2. Nothing else changes and no due work is touched. (R8, R9) -/
def Obligations.AttentionRegistersWritten : Prop :=
  ∀ (value : Word) (s : State), s.part.phase = .ready →
    (∃ q, exec (.attentionAcknowledge value) s = .next { s with part := q } ∧
      (∀ src, q.raised src = (s.part.raised src && !value.getLsbD src.number)) ∧
      q.attn.routing = s.part.attn.routing ∧ Part.keeps [.attn] s.part q) ∧
    (∃ q, exec (.routingWrite value) s = .next { s with part := q } ∧
      (∀ src, routeOf q.attn.routing src =
        if routeOf value src = 3 then 0 else routeOf value src) ∧
      q.attn.pending = s.part.attn.pending ∧ Part.keeps [.attn] s.part q ∧
      (noteLine q = true ↔ ∃ src, q.raised src = true ∧ routeOf q.attn.routing src = 1) ∧
      (alertLine q = true ↔ ∃ src, q.raised src = true ∧ routeOf q.attn.routing src = 2))

/-- In every state a power-on reset starts: nothing is due, the phase is STARTING, memory is 0 but for the
identity block, and every block has its reset values whole: guard, attention, orders with settings and
ratings, acquisition with encoder counters, snapshots and runs, current control, links, sequencer,
limits, thermal states, vibration channels and groups, trip numbers, rings and engines. Both INHIBIT
lines are asserted and no test line is driven. The levels of TRIP_IN and of the encoder lines stay as
they are; an encoder's validity with its legal run is set at the end of the reset (R61). The model's
choice: the identity block stands already at the start of the reset (log 28; the spec has it written at
the end), what was due is dropped (log 29), the data bus is kept (log 10), and the values of the fields
that are the model's own are those of logs 14, 19, 20, 23, 34 and 35. (R3, R12, R42, R46, R61, R81, R94,
R117, R135, R153, R175, R186) -/
def Obligations.PowerOnResetState : Prop :=
  ∀ s : State, ∃ q, exec .powerOnReset s = .next { s with agenda := [], part := q } ∧
    q.phase = .startingPowerOn ∧
    q.pins = { s.part.pins with resetAsserted := true } ∧
    Memory.wf q.exch.mem = true ∧
    readWords q.exch.mem 0 11 =
      [0x4B32#16, 1#16, 1#16, 16#16, 4#16, 0x4000#16, 0#16, 0xC000#16, 0#16, 512#16, 480#16] ∧
    (∀ a, 22 ≤ a → readByte q.exch.mem a = 0#8) ∧
    ResetBlocks s.part q ∧
    (∀ m, (q.allot.motor.get m).thermalH = 0) ∧
    q.trip.sequence = 0#16 ∧ q.trip.unrecorded = 0

/-- A value other than 0x5A01 answers the state unchanged. In READY with a request of 0x5A01 an event under
way is finished first, a record close that is due left out; then the due work that has not begun is
dropped and a part reset starts: order cells and live block are zeroed, a slot then FILLING is closed
truncated, every other byte is kept, and RECORD is due at READY for a slot so closed. Every block has its
reset values whole, as at power-on, but that the thermal states, the trip sequence number and the
unrecorded count are kept; both INHIBIT lines are asserted and no test line is driven. An encoder's
validity is set at the end of the reset. The model's choice: what of the due work counts as begun and
that a slot whose last entry stands is FILLING until its close (log 29), the data bus kept (log 10), and
the values of the fields that are the model's own (logs 14, 19, 20, 23, 34, 35). (R10, R14, R42, R61,
R81, R94, R117, R135, R153, R174, R175, R186) -/
def Obligations.PartResetState : Prop :=
  (∀ (value : Word) (s : State), value ≠ 0x5A01#16 → exec (.partResetRequest value) s = .next s) ∧
  (∀ s : State, s.part.phase = .ready →
    let t := finishEvent { s with agenda := s.agenda.filter (fun w => w != .recordClose) }
    betweenEvents t.agenda = true ∧
    exec (.partResetRequest 0x5A01#16) s = exec (.partResetRequest 0x5A01#16) t) ∧
  (∀ s : State, s.part.phase = .ready →
    betweenEvents (s.agenda.filter (fun w => w != .recordClose)) = true →
    Memory.wf s.part.exch.mem = true →
    ∃ q, exec (.partResetRequest 0x5A01#16) s = .next { s with agenda := [], part := q } ∧
      q.phase = .startingPart s.part.trip.filling.isSome ∧ q.pins = s.part.pins ∧
      (∀ a, 0x100 ≤ a → a < 0x1000 → readByte q.exch.mem a = 0#8) ∧
      (∀ a, a < 0x100 ∨ 0x1000 ≤ a →
        (∀ f, s.part.trip.filling = some f →
          a ≠ slotOffset f.slot ∧ a ≠ slotOffset f.slot + 1 ∧
          a ≠ slotOffset f.slot + 0x20 ∧ a ≠ slotOffset f.slot + 0x21) →
        readByte q.exch.mem a = readByte s.part.exch.mem a) ∧
      (∀ f, s.part.trip.filling = some f →
        readWord q.exch.mem (slotOffset f.slot) = 2#16 ∧
        readWord q.exch.mem (slotOffset f.slot + 0x20) = 1#16) ∧
      ResetBlocks s.part q ∧
      (∀ m, (q.allot.motor.get m).thermalH = (s.part.allot.motor.get m).thermalH) ∧
      q.trip.sequence = s.part.trip.sequence ∧
      q.trip.unrecorded = s.part.trip.unrecorded)

/-- From STARTING the end of a reset sets the phase READY and the RESET line released, every link SYNCING and
every encoder valid exactly if its line-break line is released, with the run count 16 or 0. RECORD is
made pending if the part reset closed a record. With TRIP_IN asserted a trip event of EXTERNAL with class
INHIBIT_ALL follows at that moment from the part so made, unless it is latched; otherwise nothing else
changes. The model's choice: the trip event comes behind the links, the encoders and RECORD (log 38), in
READY the command answers the state unchanged (log 11), and the data bus is kept (log 10). (R3, R10, R52,
R94, R155, R158, R161) -/
def Obligations.ResetEndState : Prop :=
  (∀ s : State, s.part.phase = .ready → exec .resetEnd s = .next s) ∧
  (∀ s : State, s.part.phase ≠ .ready → Memory.wf s.part.exch.mem = true →
    ∃ q, exec .resetEnd s = .next { s with part := q } ∧
      q.phase = .ready ∧ q.pins = { s.part.pins with resetAsserted := false } ∧
      (∀ m, q.links.get m = { s.part.links.get m with state := .syncing }) ∧
      (∀ m, let e := s.part.acq.enc.get m
        q.acq.enc.get m =
          { e with valid := !e.lineBreak, legalRun := if e.lineBreak then 0 else 16
                   disturbed := e.lineBreak }) ∧
      q.acq = { s.part.acq with enc := q.acq.enc } ∧
      (s.part.phase = .startingPart true → q.raised .record = true) ∧
      ∃ p, p.phase = .ready ∧ p.pins = q.pins ∧ p.links = q.links ∧ p.acq = q.acq ∧
        Part.raisesOnly (if s.part.phase = .startingPart true then [.record] else []) s.part p ∧
        Part.keeps [.phase, .pins, .links, .acq, .attn] s.part p ∧
        if s.part.pins.tripIn = true ∧ isLatched s.part.trip.latched .external = false then
          TripTaken .external .inhibitAll p q ∧ q.seq = (inhibitAllOrder s.part).seq
        else q = p)

/-- With no event under way, an assertion of TRIP_IN is a trip event of EXTERNAL with class INHIBIT_ALL in
READY unless it is latched; in STARTING, or with EXTERNAL latched, only the line changes. A release
changes the line alone, in every state. (R161, R155, R158) -/
def Obligations.TripInLine : Prop :=
  (∀ s : State, betweenEvents s.agenda = true → Memory.wf s.part.exch.mem = true →
    ∃ q, exec .tripInAsserted s = .next { s with part := q } ∧
      let p := s.part.setPins { s.part.pins with tripIn := true }
      if s.part.phase = .ready ∧ isLatched s.part.trip.latched .external = false then
        TripTaken .external .inhibitAll p q ∧ q.seq = (inhibitAllOrder s.part).seq
      else q = p) ∧
  (∀ s : State, exec .tripInReleased s =
    .next { s with part := s.part.setPins { s.part.pins with tripIn := false } })

/-- The exchange memory block's frame work writes OPEN and CLOSE with the frame count, every field of drive,
motors, vibration, trips, slots, engines, orders and guard with the value of its owner (speed-valid,
limiting source, thermal level and factors 0 until their block has published since the reset: log 19; the
trip sequence number, unrecorded count and slot states that a part reset keeps shown at once: log 36; the
slot being filled shown as 0xFFFF, none, also before the first record: log 18; all three the model's
choice), 0 in every word that the layout does not name, and in every word from 0x5D8 on, and no byte
outside the live block. (R5, R2, R12, R167) -/
def Obligations.LiveBlockShown : Prop :=
  ∀ p : Part, Memory.wf p.exch.mem = true →
    let q := (runWork (.frameOf .live) p).part
    let live := fun off => readWord q.exch.mem (0x500 + off)
    let flag := fun b : Bool => if b then 1#16 else 0#16
    let once := fun (published : Bool) (w : Word) => if published then w else 0#16
    readWords q.exch.mem 0x500 2 = wordsOf32 p.acq.frameCount ∧
    readWords q.exch.mem 0x5D4 2 = wordsOf32 p.acq.frameCount ∧
    live 0x04 = wordOfNat (GroupState.code p.seq.group) ∧ live 0x06 = wordOfNat p.allot.groupLimited ∧
    live 0x08 = wordOf p.seq.setpoint ∧ live 0x0A = wordOf p.seq.reference ∧
    live 0x0C = wordOf p.seq.demand ∧ live 0x0E = wordOf p.acq.driveSpeed ∧
    live 0x10 = flag p.acq.driveHeld ∧ live 0x12 = wordOfNat p.orders.activePage ∧
    live 0x14 = wordOfNat p.settings.tag ∧ live 0x16 = wordOfNat p.orders.applyCount ∧
    live 0x18 = flag p.orders.ratingsApplied ∧
    (∀ m : Motor, readWords q.exch.mem (match m with | .a => 0x520 | .b => 0x540) 14 =
      [wordOfNat (p.motorState m).code, wordOf (p.acq.enc.get m).speed,
       once p.acq.published (flag (p.acq.enc.get m).speedValid), wordOf (p.ctl.get m).id,
       wordOf (p.ctl.get m).iq, wordOf (p.allot.motor.get m).torqueRef,
       wordOf (p.allot.motor.get m).estimate, wordOf (p.allot.motor.get m).motoring,
       wordOf (p.allot.motor.get m).regenerating,
       once p.allot.published (wordOfNat (p.allot.motor.get m).shown.code),
       once p.allot.published (wordOfNat ((p.allot.motor.get m).thermalH / 65536)),
       wordOfNat (p.links.get m).state.code, wordOfNat (p.links.get m).lossCount,
       wordOfNat (p.ctl.get m).limited]) ∧
    readWords q.exch.mem 0x560 8 = Accel.all.map (fun c => wordOfNat (p.vib.channel.get c).level) ∧
    readWords q.exch.mem 0x570 8 = Accel.all.map (fun c => wordOfNat (p.vib.channel.get c).state.code) ∧
    readWords q.exch.mem 0x580 8 = Accel.all.map (fun c => wordOfNat (p.vib.channel.get c).samples) ∧
    readWords q.exch.mem 0x590 4 =
      VibGroup.all.map (fun g => wordOfNat (VibState.code (p.vib.group.get g).state)) ∧
    readWords q.exch.mem 0x598 4 =
      VibGroup.all.map (fun g => once p.vib.published (wordOfNat (p.vib.group.get g).factor)) ∧
    readWords q.exch.mem 0x5A0 4 =
      VibGroup.all.map (fun g => wordOfNat (((p.vib.group.get g).holdShown + 999) / 1000)) ∧
    live 0xA8 = wordOfNat p.vib.band ∧ live 0xAA = flag p.vib.test.isSome ∧
    readWords q.exch.mem 0x5B0 2 = wordsOf32 (latchedBits p.trip.latched) ∧
    live 0xB4 = p.trip.sequence ∧ live 0xB6 = wordOfNat p.trip.unrecorded ∧
    (∀ x : SlotId, live (0xB8 + 2 * x.number) = slotState p x) ∧
    live 0xC0 = (match p.trip.filling with
      | some f => wordOfNat f.slot.number
      | none => 0xFFFF#16) ∧
    live 0xC2 = wordOfNat (EngineState.code p.cap.e0.state) ∧
    live 0xC4 = wordOfNat p.cap.e0.remaining ∧
    live 0xC6 = wordOfNat (EngineState.code p.cap.e1.state) ∧
    live 0xC8 = wordOfNat p.cap.e1.remaining ∧
    readWords q.exch.mem 0x5CA 2 = wordsOf32 p.orders.taken ∧
    live 0xCE = wordOfNat p.exch.guardCount ∧
    readWords q.exch.mem 0x5D0 2 = wordsOf32 (BitVec.ofNat 32 p.exch.guardedOffset) ∧
    readWords q.exch.mem 0x51A 3 = [0#16, 0#16, 0#16] ∧
    readWords q.exch.mem 0x53C 2 = [0#16, 0#16] ∧ readWords q.exch.mem 0x55C 2 = [0#16, 0#16] ∧
    readWords q.exch.mem 0x5AC 2 = [0#16, 0#16] ∧
    (∀ a, 0x5D8 ≤ a → a < 0x1000 → readByte q.exch.mem a = 0#8) ∧
    Part.storesOnly (fun a => 0x500 ≤ a ∧ a < 0x1000) p q ∧ Part.keeps [.exch] p q

/-- In READY with nothing due, the expiry advances the period position 1, 2, 3, 4, 1, starts a scan with slot
0, closes each open reply window and makes its judgement due, then at position 4 the supervision frame.
That A comes before B, and both before the frame, is the model's choice (log 16). Nothing else changes
when the last scan has ended. Slots that had not ended by then end INVALID_LATE first (log 12), so the
scan set is complete. During STARTING the command answers the state unchanged. (R47, R48, R82) -/
def Obligations.PeriodExpiry : Prop :=
  (∀ s : State, s.part.phase ≠ .ready → exec .controlPeriodExpiry s = .next s) ∧
  (∀ s : State, s.part.phase = .ready → s.agenda = [] → s.part.acq.slot = none →
    let position := if s.part.acq.period % 4 = 3 then 4 else (s.part.acq.period + 1) % 4
    ∃ q, exec .controlPeriodExpiry s = .next { s with
        agenda := (if (s.part.links.get .a).window.isSome then [.replyWindowClose .a] else []) ++
          (if (s.part.links.get .b).window.isSome then [.replyWindowClose .b] else []) ++
          (if position = 4 then [.supervisionFrame] else [])
        part := q } ∧
      q.acq = { s.part.acq with period := position, slot := some 0, converted := [] } ∧
      (∀ m, let l := s.part.links.get m
        (l.window = none → q.links.get m = l) ∧
        (∀ w, l.window = some w →
          q.links.get m = { l with window := some { w with closed := true } })) ∧
      Part.keeps [.acq, .links] s.part q) ∧
  (∀ (s : State) (ch : Nat), s.part.phase = .ready → s.agenda = [] → s.part.acq.slot = some ch →
    ∃ t, exec .controlPeriodExpiry s = .next t ∧ t.pending = s.pending ∧
      t.part.acq.slot = some 0 ∧ t.part.acq.converted = [] ∧
      (∀ m w, (t.part.links.get m).window = some w → w.closed = true) ∧
      t.part.acq.scan =
        s.part.acq.converted ++ List.replicate (14 - ch) { value := 0, mark := .invalidLate })

/-- When due, the frame event brings the frame count to the next value, from 4294967295 to 1, changes nothing
else itself, and makes the work of all seven blocks due, each once: the blocks named in the command
first, in its order (log 3), the others behind. With no frame due the command has no effect: the model's
choice, log 2. The order unit's work looks at cells 0 to 15 in ascending index, each state word once as
its turn comes: a cell that reads POSTED has exactly the row of its kind due, kinds 1 to 14 as listed and
any other unknown; every other cell is passed over. (R47, R59, R12) -/
def Obligations.FrameEvent : Prop :=
  (∀ (order : List FrameBlock) (s : State) (rest : List Work), s.agenda = .supervisionFrame :: rest →
    ∃ q blocks, exec (.supervisionFrame order) s =
        .next (drain { s with agenda := blocks.map Work.frameOf ++ rest, part := q }) ∧
      q.acq = { s.part.acq with
        frameCount :=
          if s.part.acq.frameCount = 4294967295#32 then 1#32 else s.part.acq.frameCount + 1#32 } ∧
      Part.keeps [.acq] s.part q ∧
      (∀ b : FrameBlock, blocks.count b = 1) ∧
      ((Instr.supervisionFrame order).wellFormed = true → order <+: blocks)) ∧
  (∀ (order : List FrameBlock) (s : State), s.agenda = [] →
    exec (.supervisionFrame order) s = .next s) ∧
  (∀ p : Part, runWork (.frameOf .orders) p =
    { part := p, due := (List.finRange 16).map Work.scanCell }) ∧
  (∀ (n : CellId) (p : Part),
    (readWord p.exch.mem (0x100 + 0x40 * n.val) = 1#16 →
      runWork (.scanCell n) p =
        { part := p, due := [.order (orderKind (readWord p.exch.mem (0x102 + 0x40 * n.val))) n] }) ∧
    (readWord p.exch.mem (0x100 + 0x40 * n.val) ≠ 1#16 →
      runWork (.scanCell n) p = { part := p, due := [] })) ∧
  (∀ k, k < 65536 → orderKind (BitVec.ofNat 16 k) = ([.unknown, .applySettings, .applyRatings, .run, .stop,
    .halt, .setSpeed, .clearTrip, .motorOut, .motorIn, .capture, .captureCancel, .vibSelftest, .linkTest,
    .linkReset] : List OrderKind).getD k .unknown)

/-- When the events of the expiry are over (frame work may still be due: log 4), the end of the slot of
channel ch adds that channel's result: the value VALID within full scale, held at full scale and
INVALID_RANGE beyond, 0 and INVALID_LATE when not finished. Channels 0 and 1 of motor A, 2 and 3 of motor
B report OVERCURRENT for a VALID magnitude at or above the threshold and for INVALID_RANGE; the report is
a trip event of class INHIBIT_ONE unless latched. The end of slot 13 makes the scan complete, ahead of
what was due. With no slot under way nothing changes: the model's choice, log 2. (R48, R49, R50) -/
def Obligations.ConversionSlotEnded : Prop :=
  (∀ (input : Option Int) (s : State), expiryOver s.agenda = true → s.part.acq.slot = none →
    exec (.conversionSlotEnd input) s = .next s) ∧
  (∀ (input : Option Int) (s : State) (ch : Nat), expiryOver s.agenda = true →
    s.part.acq.slot = some ch → Memory.wf s.part.exch.mem = true →
    let r : Sample := match input with
      | none => { value := 0, mark := .invalidLate }
      | some x =>
        if 32767 < x then { value := 32767, mark := .invalidRange }
        else if x < -32767 then { value := -32767, mark := .invalidRange }
        else { value := x, mark := .valid }
    let owner : Option Motor :=
      if ch = 0 ∨ ch = 1 then some .a else if ch = 2 ∨ ch = 3 then some .b else none
    let beyond : Prop := r.mark = .invalidRange ∨
      (r.mark = .valid ∧ s.part.orders.ratings.overcurrent ≤ r.value.natAbs)
    let p := s.part.setAcq { s.part.acq with
      converted := s.part.acq.converted ++ [r], slot := if ch < 13 then some (ch + 1) else none }
    ∃ q, exec (.conversionSlotEnd input) s = .next { s with
        agenda := (if ch < 13 then [] else [.scanComplete]) ++ s.agenda, part := q } ∧
      (∀ m, owner = some m → beyond → isLatched s.part.trip.latched (.overcurrent m) = false →
        TripTaken (.overcurrent m) .inhibitOne p q ∧ q.seq = (inhibitOneOrder m s.part).seq) ∧
      ((∀ m, owner = some m → beyond → isLatched s.part.trip.latched (.overcurrent m) = true) → q = p))

/-- When due, the results of the scan replace the previous set as one, nothing else changes at that moment,
and the hand-overs to the two motors' current control, the vibration watch, the capture unit and the fast
ring are due, each once, those named in the command first (log 3). With no scan due the command has no
effect: the model's choice, log 2. (R48, R178) -/
def Obligations.ScanCompleted : Prop :=
  (∀ (order : List ScanBlock) (s : State) (rest : List Work), s.agenda = .scanComplete :: rest →
    ∃ q blocks, exec (.scanComplete order) s =
        .next (drain { s with agenda := blocks.map Work.scanTo ++ rest, part := q }) ∧
      q.acq = { s.part.acq with scan := s.part.acq.converted, converted := [] } ∧
      Part.keeps [.acq] s.part q ∧
      (∀ b : ScanBlock, blocks.count b = 1) ∧
      ((Instr.scanComplete order).wellFormed = true → order <+: blocks)) ∧
  (∀ (order : List ScanBlock) (s : State), s.agenda = [] → exec (.scanComplete order) s = .next s)

/-- With no event under way, in READY and with the line-break line released: a change to the next pair of the
sequence (0,0), (0,1), (1,1), (1,0) adds one and to the previous subtracts one, modulo 2^32, with one
more legal transition up to 16, and at 16 an invalid encoder is due to become valid; a change of both
signals leaves the counter, sets the run to 0 and makes the encoder invalid; the same pair changes
nothing. With the line broken only the pair changes, and so in STARTING, as log 13 reads R61. (R51, R52,
R61) -/
def Obligations.EncoderTransitionCounted : Prop :=
  ∀ (m : Motor) (a b : Bool) (s : State), betweenEvents s.agenda = true →
    let e := s.part.acq.enc.get m
    let run := min 16 (e.legalRun + 1)
    let regained := if run = 16 ∧ e.valid = false then [Work.encoderValidRegained m] else []
    ∃ e' due, exec (.encoderTransition m a b) s = .next { s with
        agenda := due ++ s.agenda
        part := s.part.setAcq { s.part.acq with enc := s.part.acq.enc.set m e' } } ∧
      (s.part.phase ≠ .ready ∨ e.lineBreak = true → e' = { e with p := a, q := b } ∧ due = []) ∧
      (s.part.phase = .ready → e.lineBreak = false →
        ((a, b) = (e.p, e.q) → e' = e ∧ due = []) ∧
        ((a, b) = (e.q, !e.p) →
          e' = { e with p := a, q := b, counter := e.counter + 1#32, legalRun := run } ∧
          due = regained) ∧
        ((a, b) = (!e.q, e.p) →
          e' = { e with p := a, q := b, counter := e.counter - 1#32, legalRun := run } ∧
          due = regained) ∧
        ((a, b) = (!e.p, !e.q) →
          e' = { e with p := a, q := b, valid := false, legalRun := 0, disturbed := true } ∧
          due = []))

/-- With no event under way, an asserted line-break line makes the encoder invalid with run count 0 in READY,
and changes the line alone in STARTING, as log 13 reads R61. A release changes the line alone. A due
regain makes the encoder valid. The counter, the pair and everything else are kept. (R51, R52, R61) -/
def Obligations.EncoderLineAndValidity : Prop :=
  ∀ (m : Motor) (s : State),
    let e := s.part.acq.enc.get m
    let withEncoder := fun e' : Encoder =>
      s.part.setAcq { s.part.acq with enc := s.part.acq.enc.set m e' }
    (betweenEvents s.agenda = true →
      let broken := if s.part.phase = .ready then
          { e with lineBreak := true, valid := false, legalRun := 0, disturbed := true }
        else { e with lineBreak := true }
      exec (.lineBreakAsserted m) s = .next { s with part := withEncoder broken }) ∧
    exec (.lineBreakReleased m) s =
      .next { s with part := withEncoder { e with lineBreak := false } } ∧
    (∀ rest, s.agenda = .encoderValidRegained m :: rest →
      exec (.encoderValidRegained m) s = .next (drain { s with
        agenda := rest, part := withEncoder { e with valid := true } }))

/-- When due, each of these five reports its cause: if the cause is latched nothing changes; if not, it is a
trip event: the cause enters the set with the class of the cause table, the trip sequence number goes up
by one, the sequencer takes the order of that class, ON_TRIP engines start, TRIP is pending, the record
writer opens a record in the lowest FREE slot, notes a follow-on or counts the trip unrecorded, and only
record slots and the cells of the RUN and the STOP in flight are stored to. An INHIBIT_ALL order puts the
group and every motor not OUT into TRIPPED; a RAMP_ALL order the group, with RUNNING and STOPPING motors
under a trip ramp from the magnitude of their torque reference (a ramp that runs is kept) and the others
TRIPPED; an INHIBIT_ONE order does nothing for a motor that is OUT, else puts it into TRIPPED, and unless
the group is starting or running with single-motor running allowed and the other motor RUNNING, the group
too and the other motor under the ramp. A motor under no trip ramp has the trip-ramp value 0 (log 35).
(R101, R155, R156, R158, R107, R108, R109, R110, R168, R171, R172) -/
def Obligations.ReportRows : Prop :=
  (∀ p : Part,
    let tripped := fun x : MotorSeq => match x.state with
      | .out | .tripped => x
      | .stopped | .magnetizing | .running | .stopping => { x with state := .tripped, idRef := 0, ramp := 0, ramping := false }
    let ramped := fun (m : Motor) (x : MotorSeq) =>
      let start : Int := (p.allot.motor.get m).torqueRef.natAbs
      match x.state with
      | .out | .tripped => x
      | .stopped | .magnetizing => { x with state := .tripped, idRef := 0, ramp := 0, ramping := false }
      | .running => { x with state := .stopping, ramp := start, ramping := true }
      | .stopping => if x.ramping then x else { x with ramp := start, ramping := true }
    let grouped : Sequencer := { p.seq with group := .tripped, allowance := none }
    inhibitAllOrder p = p.setSeq { grouped with
      motor := { a := tripped p.seq.motor.a, b := tripped p.seq.motor.b } } ∧
    rampAllOrder p = p.setSeq { grouped with
      motor := { a := ramped .a p.seq.motor.a, b := ramped .b p.seq.motor.b } } ∧
    ∀ m : Motor,
      let alone : Prop := (p.seq.group = .starting ∨ p.seq.group = .running) ∧
        p.settings.singleAllowed = true ∧ p.motorState m.other = .running
      let one := p.seq.motor.set m (tripped (p.seq.motor.get m))
      (p.motorState m = .out → inhibitOneOrder m p = p) ∧
      (p.motorState m ≠ .out → alone → inhibitOneOrder m p = p.setSeq { p.seq with motor := one }) ∧
      (p.motorState m ≠ .out → ¬ alone → inhibitOneOrder m p = p.setSeq { grouped with
        motor := one.set m.other (ramped m.other (p.seq.motor.get m.other)) })) ∧
  ∀ (c : Instr) (w : Work) (cause : Cause) (s : State) (rest : List Work), ReportRow c w cause →
    s.agenda = w :: rest → Memory.wf s.part.exch.mem = true →
    ∃ q, exec c s = .next (drain { s with agenda := rest, part := q }) ∧
      if isLatched s.part.trip.latched cause then q = s.part
      else
        match cause.owner with
        | some m => TripTaken cause .inhibitOne s.part q ∧ q.seq = (inhibitOneOrder m s.part).seq
        | none =>
          if cause = .failedStart then
            TripTaken cause .rampAll s.part q ∧ q.seq = (rampAllOrder s.part).seq
          else TripTaken cause .inhibitAll s.part q ∧ q.seq = (inhibitAllOrder s.part).seq

/-- A reply frame on a link with no window, or after the expiry has closed it, changes nothing. In an open
window the first reply is kept word for word and any further one makes the window hold more than one. The
other link, everything else and the due work are kept. (R82, R85) -/
def Obligations.ReplyIntoWindow : Prop :=
  ∀ (m : Motor) (words : List Word) (s : State),
    let l := s.part.links.get m
    (l.window = none → exec (.replyReceived m words) s = .next s) ∧
    (∀ w, l.window = some w → w.closed = true → exec (.replyReceived m words) s = .next s) ∧
    (∀ w, l.window = some w → w.closed = false →
      let w' := if w.first = none then { w with first := some words } else { w with further := true }
      exec (.replyReceived m words) s = .next { s with
        part := s.part.setLinks (s.part.links.set m { l with window := some w' }) })

/-- A due close judges the window good exactly if one reply of two words came whose check word, sequence
number, status field and bit 7 are right and whose receive-error flag is clear or the frame was a test. A
good reply replaces the held status and fault code. SYNCING counts good READY replies to 16, then LINK_UP
is due, and any other outcome sets the run to 0; UP sets the loss count to 0 or counts to 8, and
LINK_LOST is due at the tolerance; DOWN and LOST count nothing. A good FAULT reply in UP is a trip event
of INVERTER_FAULT with class INHIBIT_ONE unless the motor is OUT or the cause is latched. A test is
finished PASS, FAIL 1 or FAIL 2, which changes its cell, its entry and ORDER alone. Nothing else changes.
(R85, R86, R87, R88, R89, R90, R92, R27, R156, R158) -/
def Obligations.ReplyWindowClosed : Prop :=
  ∀ (m : Motor) (s : State) (rest : List Work), s.agenda = .replyWindowClose m :: rest →
    Memory.wf s.part.exch.mem = true →
    let l := s.part.links.get m
    (l.window = none → exec (.replyWindowClose m) s = .next (drain { s with agenda := rest })) ∧
    (∀ w, l.window = some w →
      let good := fun (st : InverterStatus) (code : Nat) (flag : Bool) => ∃ word check,
        w.first = some [word, check] ∧ w.further = false ∧ check = checkWord [word] ∧
        (word.extractLsb' 0 4).toNat = w.sequence ∧ word.getLsbD 7 = false ∧
        word.getLsbD 6 = flag ∧ (flag = true → w.test = true) ∧
        (word.extractLsb' 4 2).toNat = st.code ∧ (word.extractLsb' 8 8).toNat = code
      let noGood : Prop := ∀ st code flag, ¬ good st code flag
      let faulted : Prop := l.state = .up ∧ (∃ code flag, good .fault code flag) ∧
        s.part.motorState m ≠ .out
      ∃ q due, exec (.replyWindowClose m) s =
          .next (drain { s with agenda := due ++ rest, part := q }) ∧
        let l' := q.links.get m
        q.links.get m.other = s.part.links.get m.other ∧
        l' = { l with window := none, status := l'.status, faultCode := l'.faultCode
                      syncRun := l'.syncRun, lossCount := l'.lossCount } ∧
        (∀ st code flag, good st code flag → l'.status = st ∧ l'.faultCode = code) ∧
        (noGood → l'.status = l.status ∧ l'.faultCode = l.faultCode) ∧
        (l.state = .syncing → l'.lossCount = l.lossCount ∧
          (∀ st code flag, good st code flag →
            l'.syncRun = if st = .ready then min 16 (l.syncRun + 1) else 0) ∧
          (noGood → l'.syncRun = 0) ∧
          due = if l'.syncRun = 16 then [.linkUp m] else []) ∧
        (l.state = .up → l'.syncRun = l.syncRun ∧
          (∀ st code flag, good st code flag → l'.lossCount = 0 ∧ due = []) ∧
          (noGood → l'.lossCount = min 8 (l.lossCount + 1) ∧
            due = if s.part.settings.linkTolerance ≤ l'.lossCount then [.linkLost m] else [])) ∧
        (l.state = .down ∨ l.state = .lost →
          l'.syncRun = l.syncRun ∧ l'.lossCount = l.lossCount ∧ due = []) ∧
        (∃ p₀ p₁, p₀.links = q.links ∧ Part.keeps [.links] s.part p₀ ∧
          (faulted → isLatched s.part.trip.latched (.inverterFault m) = false →
            TripTaken (.inverterFault m) .inhibitOne p₀ p₁ ∧
            p₁.seq = (inhibitOneOrder m s.part).seq) ∧
          (¬ faulted ∨ isLatched s.part.trip.latched (.inverterFault m) = true → p₁ = p₀) ∧
          (w.test = false ∨ s.part.orders.linkTest.get m = none → q = p₁) ∧
          (∀ k, w.test = true → s.part.orders.linkTest.get m = some k →
            q.orders = { p₁.orders with linkTest := s.part.orders.linkTest.set m none } ∧
            Part.raisesOnly [.order] p₁ q ∧ Part.storesOnly (cellAnswerByte k) p₁ q ∧
            Part.keeps [.exch, .attn, .orders] p₁ q)) ∧
        (¬ faulted → w.test = false → Part.keeps [.links] s.part q) ∧
        (∀ k, w.test = true → s.part.orders.linkTest.get m = some k →
          q.orders.linkTest.get m = none ∧
          (noGood → CellFinished k .fail [2#16] s.part q) ∧
          (∀ st code, good st code true →
            CellFinished k .pass [0#16, wordOfNat st.code, wordOfNat code] s.part q) ∧
          (∀ st code, good st code false →
            CellFinished k .fail [1#16, wordOfNat st.code, wordOfNat code] s.part q)))

/-- When due, LINK_UP sets the link UP with loss count 0 and makes LINK pending, nothing else. When due,
LINK_LOST sets the link LOST with its loss count kept and makes LINK pending; unless the motor is OUT or
the cause is latched it is then a trip event of LINK_LOST with class INHIBIT_ONE, and otherwise nothing
else changes. (R87, R88) -/
def Obligations.LinkUpAndLost : Prop :=
  ∀ (m : Motor) (s : State) (rest : List Work), Memory.wf s.part.exch.mem = true →
    (s.agenda = .linkUp m :: rest →
      ∃ q, exec (.linkUp m) s = .next (drain { s with agenda := rest, part := q }) ∧
        q.links = s.part.links.set m { s.part.links.get m with state := .up, lossCount := 0 } ∧
        Part.raisesOnly [.link] s.part q ∧ Part.keeps [.attn, .links] s.part q) ∧
    (s.agenda = .linkLost m :: rest →
      ∃ p q, exec (.linkLost m) s = .next (drain { s with agenda := rest, part := q }) ∧
        p.links = s.part.links.set m { s.part.links.get m with state := .lost } ∧
        Part.raisesOnly [.link] s.part p ∧ Part.keeps [.attn, .links] s.part p ∧
        if s.part.motorState m ≠ .out ∧ isLatched s.part.trip.latched (.linkLost m) = false then
          TripTaken (.linkLost m) .inhibitOne p q ∧ q.seq = (inhibitOneOrder m s.part).seq
        else q = p)

/-- Motor m's completion takes a start copy of the ratings, with slip angle and integrators 0, at its
energizing; steps the slip angle; forms the flux angle; takes id and iq by Clarke and Park from the held
samples, the voltages from the regulator and their phases by inverse Park. A motor not energized has its
angle without slip, id and iq, and voltages, integrators, slip angle and flags 0. On a link that is not
DOWN a frame goes out: word 0 with the sequence number and the command (SYNC in SYNCING, INHIBIT in LOST,
in UP ENABLE exactly while energized with no inhibit-class cause for it latched), voltages only under
ENABLE, and the check word, inverted for a pending test; the counter goes on modulo 16 and a fresh open
window stands. In DOWN nothing is sent. The other motor and every other block are kept. (R82, R83, R84,
R92, R65, R69, R70, R72, R73, R79) -/
def Obligations.ReferenceFrameSent : Prop :=
  ∀ (m : Motor) (p : Part),
    let q := (runWork (.controlCompute m) p).part
    let l := p.links.get m
    let l' := q.links.get m
    let c0 := p.ctl.get m
    let c := q.ctl.get m
    let energized : Prop := p.motorState m = .magnetizing ∨ p.motorState m = .running ∨
      p.motorState m = .stopping
    let inhibited : Prop := ∃ x ∈ p.trip.latched,
      x.cls = .inhibitAll ∨ (x.cls = .inhibitOne ∧ x.cause.owner = some m)
    let kept := fun (x : Int) => if c0.energized then x else 0
    let rotor := ((p.acq.enc.get m).counter.toNat % c.start.countsPerRev * c.start.kang + 32768) / 65536
      % 65536
    let sine := sinOf c.theta
    let cosine := cosOf c.theta
    let iBeta := saturate (roundedShift 15 ((c0.heldA + 2 * c0.heldB) * 18919))
    (runWork (.controlCompute m) p).due = [] ∧
    Part.keeps [.ctl, .links] p q ∧
    q.ctl.get m.other = p.ctl.get m.other ∧ q.links.get m.other = p.links.get m.other ∧
    c = { c0 with
      energized := c.energized, start := c.start, slip := c.slip, theta := c.theta, integD := c.integD
      integQ := c.integQ, vd := c.vd, vq := c.vq, vAlpha := c.vAlpha, vBeta := c.vBeta, id := c.id
      iq := c.iq, limited := c.limited } ∧
    c.id = saturate (roundedShift 15 (c0.heldA * cosine + iBeta * sine)) ∧
    c.iq = saturate (roundedShift 15 (iBeta * cosine - c0.heldA * sine)) ∧
    (¬ energized → c.energized = false ∧ c.start = c0.start ∧ c.theta = rotor ∧ c.vd = 0 ∧ c.vq = 0 ∧
      c.vAlpha = 0 ∧ c.vBeta = 0 ∧ c.integD = 0 ∧ c.integQ = 0 ∧ c.slip = 0 ∧ c.limited = 0) ∧
    (energized → c.energized = true ∧
      (c0.energized = true → c.start = c0.start) ∧
      (c0.energized = false → c.start =
        { countsPerRev := p.orders.ratings.countsPerRev, kang := p.orders.ratings.kang
          kslip := p.orders.ratings.kslip }) ∧
      (c.slip : Int) = (kept c0.slip +
        ((p.allot.motor.get m).iqRef * c.start.kslip).tdiv (max (p.seq.motor.get m).idRef 64)) % 65536 ∧
      c.theta = (rotor + c.slip) % 65536 ∧
      (let inputs : RegulatorInputs :=
        { idRef := (p.seq.motor.get m).idRef, iqRef := (p.allot.motor.get m).iqRef, id := c.id, iq := c.iq
          speed := (p.acq.enc.get m).speed, udc := c0.heldUdc, kp := p.settings.kp, ki := p.settings.ki
          vlim := p.settings.vlim, kemf := p.settings.kemf }
      regulate inputs (kept c0.integD) (kept c0.integQ) =
        { vd := c.vd, vq := c.vq, integD := c.integD, integQ := c.integQ, limited := c.limited }) ∧
      c.vAlpha = saturate (roundedShift 15 (c.vd * cosine - c.vq * sine)) ∧
      c.vBeta = saturate (roundedShift 15 (c.vd * sine + c.vq * cosine))) ∧
    (l.state = .down → l' = l) ∧
    (l.state ≠ .down → ∃ (cmd : Nat) (w1 w2 : Word),
      let words := [wordOfNat (l.sequence + 16 * cmd), w1, w2]
      l' = { l with
        sequence := (l.sequence + 1) % 16
        window := some { sequence := l.sequence, test := l.testPending, first := none
                         further := false, closed := false }
        testPending := false
        sent := words ++ [if l.testPending then ~~~checkWord words else checkWord words] } ∧
      (l.state = .syncing → cmd = 1) ∧ (l.state = .lost → cmd = 2) ∧
      (l.state = .up → energized → ¬ inhibited → cmd = 3) ∧
      (l.state = .up → ¬ energized ∨ inhibited → cmd = 2) ∧
      (cmd = 3 → w1 = wordOf c.vAlpha ∧ w2 = wordOf c.vBeta) ∧
      (cmd ≠ 3 → w1 = 0#16 ∧ w2 = 0#16))

/-- For all inputs each axis takes its saturated error, a candidate integrator held within Vmax, and the sum
of its rounded proportional term and the candidate, the q axis with the back-EMF term too, saturated. vd
is the d sum held within Vmax; vq is the q sum held within the floor root of what vd leaves of Vmax
squared. An axis is flagged exactly if Vmax is 0 or its clamp changed it; a flagged axis keeps its
integrator, one not flagged takes the candidate. So Vmax is not negative, vd is at most Vmax, vd squared
plus vq squared is at most Vmax squared, and with Vmax 0 both voltages are 0 and both axes flagged. (R74,
R75, R76, R77, R78) -/
def Obligations.RegulatorWithinVoltage : Prop :=
  ∀ (i : RegulatorInputs) (integD integQ : Int),
    let r := regulate i integD integQ
    let vmax := roundedShift 15 (i.vlim * max 0 i.udc)
    let ed := saturate (i.idRef - i.id)
    let eq := saturate (i.iqRef - i.iq)
    let candD := clampTo (-vmax) vmax (saturate (integD + roundedShift 16 (i.ki * ed)))
    let candQ := clampTo (-vmax) vmax (saturate (integQ + roundedShift 16 (i.ki * eq)))
    let ud := saturate (roundedShift 12 (i.kp * ed) + candD)
    let uq := saturate (roundedShift 12 (i.kp * eq) + candQ +
      saturate (roundedShift 12 (i.speed * i.kemf)))
    r.vd = clampTo (-vmax) vmax ud ∧
    (∃ left : Int, 0 ≤ left ∧ left * left ≤ vmax * vmax - r.vd * r.vd ∧
      vmax * vmax - r.vd * r.vd < (left + 1) * (left + 1) ∧ r.vq = clampTo (-left) left uq) ∧
    (r.limited % 2 = 1 ↔ vmax = 0 ∨ r.vd ≠ ud) ∧ (r.limited / 2 = 1 ↔ vmax = 0 ∨ r.vq ≠ uq) ∧
    (r.limited % 2 = 0 → r.integD = candD) ∧ (r.limited / 2 = 0 → r.integQ = candQ) ∧
    0 ≤ vmax ∧ r.vd.natAbs ≤ vmax ∧ r.vd * r.vd + r.vq * r.vq ≤ vmax * vmax ∧ r.limited ≤ 3 ∧
    (r.limited % 2 = 0 → (r.integD.natAbs : Int) ≤ vmax) ∧
    (r.limited % 2 = 1 → r.integD = integD) ∧
    (r.limited / 2 = 0 → (r.integQ.natAbs : Int) ≤ vmax) ∧
    (r.limited / 2 = 1 → r.integQ = integQ) ∧
    (vmax = 0 → r.vd = 0 ∧ r.vq = 0 ∧ r.limited = 3)

/-- At its frame event the sequencer first brings each TRIPPED motor with no cause of its own and no group
cause latched to STOPPED, then a TRIPPED group to IDLE, with the loop values 0, once every latched cause
belongs to a motor that is OUT and no motor is STOPPING. Then each trip-ramp value falls by the stop
torque ramp, to 0 at the least, and the end is due for each motor whose value is 0, A before B (log 16),
then the later steps. When due, the end of a trip ramp puts the motor into TRIPPED with id_ref 0, under
no trip ramp and with its step count kept; its INHIBIT line is asserted at once. Nothing else changes. A
motor under no trip ramp has the trip-ramp value 0 (log 35). (R98, R111, R115) -/
def Obligations.TripRampEnded : Prop :=
  (∀ p : Part,
    let work := runWork (.frameOf .sequencer) p
    let q := work.part
    let groupCause : Prop := ∃ l ∈ p.trip.latched, l.cause.owner = none
    let ownCause := fun m => ∃ l ∈ p.trip.latched, l.cause.owner = some m
    let ended := fun m => (q.seq.motor.get m).state = .stopping ∧ (q.seq.motor.get m).ramping = true ∧
      (q.seq.motor.get m).ramp = 0
    Part.keeps [.seq] p q ∧
    (∀ m, let x := p.seq.motor.get m
      let x' := q.seq.motor.get m
      (x.state = .tripped → ¬ ownCause m → ¬ groupCause →
        x' = { x with state := .stopped, idRef := 0, ramp := 0, ramping := false }) ∧
      (x.state = .tripped → ownCause m ∨ groupCause → x' = x) ∧
      (x.state = .stopping → x.ramping = true →
        x' = { x with ramp := max 0 (x.ramp - p.settings.stopRamp) }) ∧
      (x.state ≠ .tripped → (x.state ≠ .stopping ∨ x.ramping = false) → x' = x)) ∧
    (let free : Prop := p.seq.group = .tripped ∧
      (∀ l ∈ p.trip.latched, ∃ m, l.cause.owner = some m ∧ p.motorState m = .out) ∧
      ∀ m, p.motorState m ≠ .stopping
    (free → q.seq = { p.seq with
      motor := q.seq.motor, group := .idle, reference := 0, integrator := 0, remainder := 0
      demand := 0 }) ∧
    (¬ free → q.seq = { p.seq with motor := q.seq.motor })) ∧
    (ended .a → ended .b → work.due = [.tripRampEnd .a, .tripRampEnd .b, .sequencerStart]) ∧
    (∀ m, ended m → ¬ ended m.other → work.due = [.tripRampEnd m, .sequencerStart]) ∧
    (¬ ended .a → ¬ ended .b → work.due = [.sequencerStart])) ∧
  (∀ (m : Motor) (s : State) (rest : List Work), s.agenda = .tripRampEnd m :: rest →
    ∃ q, exec (.tripRampEnd m) s = .next (drain { s with agenda := rest, part := q }) ∧
      (let rested : MotorSeq :=
        { state := .tripped, stepCount := (s.part.seq.motor.get m).stepCount, idRef := 0
          ramp := 0, ramping := false }
      q.seq = { s.part.seq with motor := s.part.seq.motor.set m rested }) ∧
      inhibitLine q m = true ∧ Part.keeps [.seq] s.part q)

/-- In STARTING at creep speed the group goes to RUNNING, the allowance ends and a RUN in flight is finished
OK; below creep speed the allowance falls by one frame, and at 0 the start has failed. Each MAGNETIZING
motor then takes one step, up to 65535, with id_ref the flux reference times the smaller of step and
time, divided by the time, truncating; the end is due in an IDLE group when every MAGNETIZING motor has
come to its time, in another when any has, and the loop behind it. When due in an IDLE group, every
MAGNETIZING motor goes to RUNNING and the group to STARTING with the reference at the drive speed,
integrator, remainder and demand 0 and the allowance of the duration code. In any other group the
MAGNETIZING motors at their time go to RUNNING, and the RUN in flight is finished OK exactly when every
motor it is bringing in is RUNNING. Nothing else changes. A motor under no trip ramp has the trip-ramp
value 0 (log 35). (R98, R100, R101, R113) -/
def Obligations.MagnetizingFinished : Prop :=
  (∀ p : Part, Memory.wf p.exch.mem = true →
    let work := runWork .sequencerStart p
    let q := work.part
    let st := p.settings
    let creep : Prop := p.seq.group = .starting ∧ st.creep ≤ p.acq.driveSpeed
    let waiting : Prop := p.seq.group = .starting ∧ p.acq.driveSpeed < st.creep
    let ready := fun m => (q.seq.motor.get m).state = .magnetizing ∧
      st.magnetizingTime ≤ (q.seq.motor.get m).stepCount
    let finished : Prop := (∃ m, ready m) ∧
      (p.seq.group = .idle → ∀ m, (q.seq.motor.get m).state = .magnetizing → ready m)
    (∀ m, let x := p.seq.motor.get m
      let k := min 65535 (x.stepCount + 1)
      q.seq.motor.get m =
        if x.state = .magnetizing then
          { x with stepCount := k
                   idRef := (st.fluxRef * (min k st.magnetizingTime : Nat)).tdiv st.magnetizingTime }
        else x) ∧
    (creep → q.seq = { p.seq with motor := q.seq.motor, group := .running, allowance := none }) ∧
    (waiting → q.seq = { p.seq with
      motor := q.seq.motor, allowance := p.seq.allowance.map (fun n => n - 1) }) ∧
    (¬ creep → ¬ waiting → q.seq = { p.seq with motor := q.seq.motor }) ∧
    (∀ r, creep → p.orders.run = some r →
      CellFinished r.cell .ok [] p q ∧ q.orders = { p.orders with run := none } ∧
      Part.raisesOnly [.order] p q ∧ Part.storesOnly (cellAnswerByte r.cell) p q ∧
      Part.keeps [.exch, .attn, .orders, .seq] p q) ∧
    (¬ creep ∨ p.orders.run = none → Part.keeps [.seq] p q) ∧
    ∃ failed : Bool, (failed = true ↔ waiting ∧ p.seq.allowance = some 1) ∧
      (finished → work.due = [.magnetizingRampFinished, .sequencerLoop failed]) ∧
      (¬ finished → work.due = [.sequencerLoop failed])) ∧
  (∀ (s : State) (rest : List Work), s.agenda = .magnetizingRampFinished :: rest →
    Memory.wf s.part.exch.mem = true →
    let time := s.part.settings.magnetizingTime
    ∃ q, exec .magnetizingRampFinished s = .next (drain { s with agenda := rest, part := q }) ∧
      (∀ m, let x := s.part.seq.motor.get m
        q.seq.motor.get m =
          if x.state = .magnetizing ∧ (s.part.seq.group = .idle ∨ time ≤ x.stepCount) then
            { x with state := .running, ramp := 0, ramping := false }
          else x) ∧
      (s.part.seq.group = .idle →
        q.seq = { s.part.seq with
          motor := q.seq.motor, group := .starting, reference := s.part.acq.driveSpeed
          integrator := 0, remainder := 0, demand := 0
          allowance := some (([2000, 4000, 6000, 10000, 15000, 20000, 30000, 45000] : List Nat).getD
            s.part.settings.breakawayCode 0) } ∧
        Part.keeps [.seq] s.part q) ∧
      (s.part.seq.group ≠ .idle →
        q.seq = { s.part.seq with motor := q.seq.motor } ∧
        (∀ r, s.part.orders.run = some r →
          (∀ m, r.joining.get m = true → (q.seq.motor.get m).state = .running) →
          CellFinished r.cell .ok [] s.part q ∧ q.orders = { s.part.orders with run := none } ∧
          Part.raisesOnly [.order] s.part q ∧ Part.storesOnly (cellAnswerByte r.cell) s.part q ∧
          Part.keeps [.exch, .attn, .orders, .seq] s.part q) ∧
        ((∀ r, s.part.orders.run = some r →
          ∃ m, r.joining.get m = true ∧ (q.seq.motor.get m).state ≠ .running) →
          Part.keeps [.seq] s.part q)))

/-- In STARTING, RUNNING and STOPPING the reference goes toward its target (the setpoint, or 0 in STOPPING)
by the thousandth of rate plus remainder carried in the same direction, and not past it; the integrator
takes the candidate held within the gear caps unless the group-limited flag holds it against the error,
and the demand is the rounded proportional term plus the integrator held within the caps. With caps not
negative the demand lies within them, the reference is no further from its target, and the remainder is
below 1000. In STOPPING at reference 0 below standstill the stop is complete: the group IDLE, the loop
values 0, STOPPING motors STOPPED, the STOP in flight finished OK. RUNNING and STOPPING motors publish
the flux reference. IDLE and TRIPPED groups keep the loop values. A failed start is due behind these
steps (log 17). A motor under no trip ramp has the trip-ramp value 0 (log 35). (R98, R102, R103, R104,
R106, R96) -/
def Obligations.SpeedLoopBounds : Prop :=
  (∀ (failed : Bool) (p : Part),
    (p.seq.group = .starting ∨ p.seq.group = .running ∨ p.seq.group = .stopping) →
    0 ≤ p.settings.capMotoring → 0 ≤ p.settings.capRegenerating →
    let q := (runWork (.sequencerLoop failed) p).part
    let target := if p.seq.group = .stopping then 0 else p.seq.setpoint
    let rate := if p.seq.reference < target then p.settings.acceleration else p.settings.deceleration
    q.seq.demand ≤ p.settings.capMotoring ∧ -p.settings.capRegenerating ≤ q.seq.demand ∧
    q.seq.remainder < 1000 ∧ q.seq.setpoint = p.seq.setpoint ∧
    (target - q.seq.reference).natAbs ≤ (target - p.seq.reference).natAbs ∧
    (q.seq.reference = target ∨
      (target - p.seq.reference).natAbs =
        (target - q.seq.reference).natAbs + rate / 1000 ∨
      (target - p.seq.reference).natAbs =
        (target - q.seq.reference).natAbs + (rate + p.seq.remainder) / 1000)) ∧
  (∀ (failed : Bool) (p : Part), Memory.wf p.exch.mem = true →
    let q := (runWork (.sequencerLoop failed) p).part
    let st := p.settings
    let runs : Prop := p.seq.group = .starting ∨ p.seq.group = .running ∨ p.seq.group = .stopping
    let target := if p.seq.group = .stopping then 0 else p.seq.setpoint
    let up : Bool := p.seq.reference < target
    let sum := (if up then st.acceleration else st.deceleration) +
      (if up = p.seq.rising then p.seq.remainder else 0)
    let arrives : Prop := (target - p.seq.reference).natAbs ≤ sum / 1000
    let error := saturate (q.seq.reference - p.acq.driveSpeed)
    let held : Prop := (p.allot.groupLimited = 1 ∧ 0 < error) ∨ (p.allot.groupLimited = 2 ∧ error < 0)
    let complete : Prop := p.seq.group = .stopping ∧ q.seq.reference = 0 ∧
      (p.acq.driveSpeed.natAbs : Int) < st.standstill
    let shown := fun x : MotorSeq => match x.state with
      | .running | .stopping => { x with idRef := st.fluxRef }
      | .stopped | .magnetizing | .tripped | .out => x
    (runWork (.sequencerLoop failed) p).due = (if failed then [.failedStart] else []) ∧
    (runs →
      (p.seq.reference = target → q.seq.reference = target ∧ q.seq.remainder = 0 ∧
        q.seq.rising = p.seq.rising) ∧
      (p.seq.reference ≠ target → q.seq.rising = up) ∧
      (p.seq.reference ≠ target → arrives → q.seq.reference = target ∧ q.seq.remainder = 0) ∧
      (p.seq.reference ≠ target → ¬ arrives →
        q.seq.reference = p.seq.reference + (if up then 1 else -1) * (sum / 1000 : Nat) ∧
        q.seq.remainder = sum % 1000)) ∧
    (runs → ¬ complete →
      (held → q.seq.integrator = p.seq.integrator) ∧
      (¬ held → q.seq.integrator = clampTo (-st.capRegenerating) st.capMotoring
        (p.seq.integrator + roundedShift 16 (st.kis * error))) ∧
      q.seq.demand = clampTo (-st.capRegenerating) st.capMotoring
        (roundedShift 12 (st.kps * error) + q.seq.integrator) ∧
      (∀ m, q.seq.motor.get m = shown (p.seq.motor.get m)) ∧
      q.seq = { p.seq with
        motor := q.seq.motor, reference := q.seq.reference, remainder := q.seq.remainder
        rising := q.seq.rising, integrator := q.seq.integrator, demand := q.seq.demand } ∧
      Part.keeps [.seq] p q) ∧
    (complete →
      (∀ m, q.seq.motor.get m = if p.motorState m = .stopping then
          { p.seq.motor.get m with state := .stopped, idRef := 0, ramp := 0, ramping := false }
        else shown (p.seq.motor.get m)) ∧
      q.seq = { p.seq with
        motor := q.seq.motor, group := .idle, reference := 0, remainder := 0, rising := q.seq.rising
        integrator := 0, demand := 0 } ∧
      (p.orders.stop = none → Part.keeps [.seq] p q) ∧
      (∀ n, p.orders.stop = some n →
        CellFinished n .ok [] p q ∧ q.orders = { p.orders with stop := none } ∧
        Part.raisesOnly [.order] p q ∧ Part.storesOnly (cellAnswerByte n) p q ∧
        Part.keeps [.exch, .attn, .orders, .seq] p q)) ∧
    (¬ runs → q.seq = { p.seq with
        motor := { a := shown p.seq.motor.a, b := shown p.seq.motor.b } } ∧ Part.keeps [.seq] p q))

/-- For a share from 0 to 256 and limits that are not negative, motor A's part is the rounded shift by 8 of
the demand times the share and B's the rest, each clamped to its limit; each reference is the clamped
part plus, in the direction of the frame, the smaller of the other motor's excess and its own room, and
the remainder is what of both excesses found no room. So parts within their limits are the references,
and the remainder is the magnitude of the demand beyond both limits together. Each motor's torque
reference has at most the magnitude of its limit and the sign of the demand or is 0, the remainder is not
negative, and the two references plus the remainder in the direction of the frame are the demand: no
torque is lost or made. (R127, R128, R129) -/
def Obligations.TorqueDivided : Prop :=
  ∀ (d limitA limitB : Int) (shareA : Nat), shareA ≤ 256 → 0 ≤ limitA → 0 ≤ limitB →
    let r := divideDemand d shareA limitA limitB
    let partA := roundedShift 8 (d * shareA)
    let partB := d - partA
    let clampedA := max (-limitA) (min limitA partA)
    let clampedB := max (-limitB) (min limitB partB)
    let excessA : Int := partA.natAbs - clampedA.natAbs
    let excessB : Int := partB.natAbs - clampedB.natAbs
    let toA := min excessB (limitA - clampedA.natAbs)
    let toB := min excessA (limitB - clampedB.natAbs)
    let direction : Int := if 0 ≤ d then 1 else -1
    r.a = clampedA + direction * toA ∧ r.b = clampedB + direction * toB ∧
    r.remainder = (excessA - toB) + (excessB - toA) ∧
    ((partA.natAbs : Int) ≤ limitA → (partB.natAbs : Int) ≤ limitB → r.a = partA ∧ r.b = partB) ∧
    r.remainder = max 0 (d.natAbs - limitA - limitB) ∧
    (r.a.natAbs : Int) ≤ limitA ∧ (r.b.natAbs : Int) ≤ limitB ∧ 0 ≤ r.remainder ∧
    (0 ≤ d → 0 ≤ r.a ∧ 0 ≤ r.b ∧ r.a + r.b + r.remainder = d) ∧
    (d < 0 → r.a ≤ 0 ∧ r.b ≤ 0 ∧ r.a + r.b - r.remainder = d)

/-- When due and GEAR_OVERLOAD is escalated, the run is marked reported and the cause is reported: nothing
more if latched, else a trip event with the class of choice bit 5 (INHIBIT_ALL when set, RAMP_ALL when
not). When it is not escalated the run is marked noticed and, unless the frame has raised LIMIT already,
LIMIT is made pending, nothing more. What the marks do, and that the mark of the frame's LIMIT withholds
a second one, is the model's choice (log 23). (R132, R133, R156, R158) -/
def Obligations.GearOverloadDetected : Prop :=
  ∀ (s : State) (rest : List Work), s.agenda = .gearOverload :: rest →
    Memory.wf s.part.exch.mem = true →
    ∃ q, exec .gearOverload s = .next (drain { s with agenda := rest, part := q }) ∧
      if s.part.settings.escalation.getLsbD 5 then
        let p := s.part.setAllot { s.part.allot with gearReported := true }
        if isLatched s.part.trip.latched .gearOverload then q = p
        else if s.part.settings.classChoices.getLsbD 5 then
          TripTaken .gearOverload .inhibitAll p q ∧ q.seq = (inhibitAllOrder s.part).seq
        else TripTaken .gearOverload .rampAll p q ∧ q.seq = (rampAllOrder s.part).seq
      else
        q.allot = { s.part.allot with gearNoticed := true } ∧
        (s.part.allot.limitRaised = false → Part.raisesOnly [.limit] s.part q) ∧
        (s.part.allot.limitRaised = true → q.attn = s.part.attn) ∧
        Part.keeps [.attn, .allot] s.part q

/-- When due, the window of the channel ends: with more than W/8 invalid samples the channel is INVALID, its
runs 0 and its level kept; otherwise the level is the floor root of the accumulator divided by W, each
run goes up by one to 15 or to 0 by its threshold in the band of the drive speed, and the state follows
from the old state, the persistences and the margin. A fresh window begins, the filter goes on, VIBRATION
is made pending exactly if the state changed, and nothing else changes. (R139, R140, R141, R142, R143) -/
def Obligations.WindowEnded : Prop :=
  ∀ (c : Accel) (s : State) (rest : List Work), s.agenda = .windowEnd c :: rest →
    let old := s.part.vib.channel.get c
    let st := s.part.settings
    let t := Settings.thresholdsOf st
      (st.edges.filter (fun edge => edge ≤ s.part.acq.driveSpeed)).length c.group
    let margin : Int := (st.groups.get c.group).margin
    ∃ q, exec (.windowEnd c) s = .next (drain { s with agenda := rest, part := q }) ∧
      let new := q.vib.channel.get c
      new = { old with
        accumulator := 0, samples := 0, invalid := 0, alertRun := new.alertRun
        dangerRun := new.dangerRun, level := new.level, state := new.state } ∧
      q.vib = { s.part.vib with channel := s.part.vib.channel.set c new } ∧
      Part.raisesOnly (if new.state = old.state then [] else [.vibration]) s.part q ∧
      Part.keeps [.attn, .vib] s.part q ∧
      (2 ^ st.windowCode / 8 < old.invalid →
        new.state = .invalid ∧ new.alertRun = 0 ∧ new.dangerRun = 0 ∧ new.level = old.level) ∧
      (old.invalid ≤ 2 ^ st.windowCode / 8 →
        new.level * new.level ≤ old.accumulator / 2 ^ st.windowCode ∧
        old.accumulator / 2 ^ st.windowCode < (new.level + 1) * (new.level + 1) ∧
        new.alertRun = (if t.alert ≤ new.level then min 15 (old.alertRun + 1) else 0) ∧
        new.dangerRun = (if t.danger ≤ new.level then min 15 (old.dangerRun + 1) else 0) ∧
        (st.dangerPersistence ≤ new.dangerRun → new.state = .danger) ∧
        (new.dangerRun < st.dangerPersistence →
          match old.state with
          | .disabled | .normal | .invalid =>
            new.state = if st.alertPersistence ≤ new.alertRun then .alert else .normal
          | .alert =>
            new.state = if (new.level : Int) < t.alert - margin then .normal else .alert
          | .danger =>
            new.state =
              if (new.level : Int) < t.danger - margin then
                if (new.level : Int) < t.alert - margin then .normal else .alert
              else .danger))

/-- At the end of a scan's vibration work each group is DISABLED with no channel enabled, LOST when every
enabled channel is INVALID, else DANGER, ALERT or NORMAL by its worst channel. A group whose state does
not change keeps its hold; one that goes down in rank starts a hold of its code's length at the more
severe of the old and the held state, or keeps its hold at code 0; one that goes up or sideways ends a
hold whose held state is at or below its rank. A group that enters DANGER with its escalation bit set has
its cause latched, with the class chosen if it was not, each such latching one trip event; nothing else
reports. Channels, factors and the self-test are kept. Each such latching is a whole trip event, with the
order of its class to the sequencer, its record, the orders in flight and the ON_TRIP engines, on the
part as the groups before it have left it. (That the groups are formed and report in the order pinion A,
pinion B, gear, tyre stations is the model's choice, log 33.) (R144, R145, R147, R155, R156, R158, R159,
R107, R109) -/
def Obligations.GroupsFormed : Prop :=
  ∀ p : Part,
    let q := (runWork .vibrationGroups p).part
    let entered : VibGroup → Prop := fun g =>
      (q.vib.group.get g).state = .danger ∧ (p.vib.group.get g).state ≠ .danger ∧
      p.settings.escalation.getLsbD g.number = true
    (runWork .vibrationGroups p).due = [] ∧
    q.vib = { p.vib with group := q.vib.group } ∧
    Part.keeps [.exch, .attn, .orders, .seq, .vib, .trip, .cap] p q ∧
    ((∀ g, ¬ entered g) → Part.keeps [.vib] p q) ∧
    (∀ c, isLatched q.trip.latched c = true ↔
      isLatched p.trip.latched c = true ∨ ∃ g, c = .vibDanger g ∧ entered g) ∧
    (∀ g, entered g → isLatched p.trip.latched (.vibDanger g) = false →
      latchedClass q.trip.latched (.vibDanger g) =
        some (if p.settings.classChoices.getLsbD g.number then .inhibitAll else .rampAll)) ∧
    (∀ reporters : List VibGroup, reporters.Nodup →
      (∀ g, g ∈ reporters ↔ entered g ∧ isLatched p.trip.latched (.vibDanger g) = false) →
      q.trip.sequence = p.trip.sequence + BitVec.ofNat 16 reporters.length ∧
      (reporters ≠ [] → q.raised .trip = true)) ∧
    (Memory.wf p.exch.mem = true →
      let formed := fun (g : VibGroup) (x y : Part) =>
        let x' := x.setVib { x.vib with group := x.vib.group.set g (q.vib.group.get g) }
        if entered g ∧ isLatched x.trip.latched (.vibDanger g) = false then
          if p.settings.classChoices.getLsbD g.number then
            TripTaken (.vibDanger g) .inhibitAll x' y ∧ y.seq = (inhibitAllOrder x').seq
          else TripTaken (.vibDanger g) .rampAll x' y ∧ y.seq = (rampAllOrder x').seq
        else y = x'
      ∃ p₁ p₂ p₃, formed .pinionA p p₁ ∧ formed .pinionB p₁ p₂ ∧ formed .gear p₂ p₃ ∧
        formed .tyre p₃ q) ∧
    ∀ g : VibGroup,
      let enabled : Accel → Prop := fun c =>
        c.group = g ∧ (p.vib.channel.get c).state ≠ .disabled
      let has : ChannelState → Prop := fun x => ∃ c, c.group = g ∧ (p.vib.channel.get c).state = x
      let old : GroupWatch := p.vib.group.get g
      let new : GroupWatch := q.vib.group.get g
      let code : Nat := (p.settings.groups.get g).holdCode
      let frames : Nat := ([0, 5000, 15000, 45000, 120000, 300000, 600000, 1200000] : List Nat).getD code 0
      let rank : VibState → Nat := fun x => match x with
        | .disabled | .normal => 0
        | .alert => 1
        | .lost => 2
        | .danger => 3
      ((¬ ∃ c, enabled c) → new.state = .disabled) ∧
      ((∃ c, enabled c) → (∀ c, enabled c → (p.vib.channel.get c).state = .invalid) →
        new.state = .lost) ∧
      (has .danger → new.state = .danger) ∧
      (has .alert → ¬ has .danger → new.state = .alert) ∧
      (has .normal → ¬ has .danger → ¬ has .alert → new.state = .normal) ∧
      new.factor = old.factor ∧ new.holdShown = old.holdShown ∧
      (new.state = old.state → new.hold = old.hold) ∧
      (rank new.state < rank old.state → code = 0 → new.hold = old.hold) ∧
      (rank new.state < rank old.state → code ≠ 0 →
        (old.hold = none → new.hold = some { held := old.state, remaining := frames }) ∧
        (∀ h, old.hold = some h → new.hold = some
          { held := if rank old.state < rank h.held then h.held else old.state
            remaining := frames })) ∧
      (new.state ≠ old.state → rank old.state ≤ rank new.state →
        (old.hold = none → new.hold = none) ∧
        (∀ h, old.hold = some h →
          (rank h.held ≤ rank new.state → new.hold = none) ∧
          (rank new.state < rank h.held → new.hold = some h)))

/-- When due, the settling end begins measuring with count 0 and changes nothing else. The measuring end
gives every channel of the test set the outcome 3 with more than W/8 invalid samples, else 1 if its
floor-root level lies in its range and 2 if not, every other channel 0; it releases every test line and
begins recovering. The end leaves the unit idle with fresh windows in the test set and finishes the cell
PASS, or FAIL if some outcome is 2, with the eight outcomes. (R149, R150, R26, R60) -/
def Obligations.SelftestPhases : Prop :=
  ∀ (s : State) (rest : List Work) (t : Selftest), s.part.vib.test = some t →
    Memory.wf s.part.exch.mem = true →
    let window := 2 ^ s.part.settings.windowCode
    (s.agenda = .selftestSettlingEnd :: rest →
      exec .selftestSettlingEnd s = .next (drain { s with
        agenda := rest
        part := s.part.setVib { s.part.vib with
          test := some { t with phase := .measuring, count := 0 } } })) ∧
    (s.agenda = .selftestMeasuringEnd :: rest →
      ∃ q t', exec .selftestMeasuringEnd s = .next (drain { s with agenda := rest, part := q }) ∧
        t' = { t with phase := .recovering, count := 0, outcomes := t'.outcomes } ∧
        q.vib = { s.part.vib with channel := q.vib.channel, test := some t' } ∧
        (∀ c, let ch := s.part.vib.channel.get c
          q.vib.channel.get c =
            (if t.set.get c then { ch with accumulator := 0, samples := 0, invalid := 0 } else ch) ∧
          (t.set.get c = false → t'.outcomes.get c = 0) ∧
          (t.set.get c = true → window / 8 < ch.invalid → t'.outcomes.get c = 3) ∧
          (t.set.get c = true → ch.invalid ≤ window / 8 →
            ∀ level, level * level ≤ ch.accumulator / window →
              ch.accumulator / window < (level + 1) * (level + 1) →
              t'.outcomes.get c =
                if (s.part.settings.selftest.get c).low ≤ level ∧
                  level ≤ (s.part.settings.selftest.get c).high then 1 else 2)) ∧
        (∀ c, testLine q c = false) ∧
        q.acq = { s.part.acq with testLines := q.acq.testLines } ∧
        Part.keeps [.acq, .vib] s.part q) ∧
    (s.agenda = .selftestEnd :: rest →
      ∃ q, exec .selftestEnd s = .next (drain { s with agenda := rest, part := q }) ∧
        q.vib = { s.part.vib with channel := q.vib.channel, test := none } ∧
        (∀ c, let ch := s.part.vib.channel.get c
          q.vib.channel.get c =
            if t.set.get c then
              { ch with accumulator := 0, samples := 0, invalid := 0, alertRun := 0, dangerRun := 0 }
            else ch) ∧
        (s.part.orders.selftest = none → Part.keeps [.vib] s.part q) ∧
        (∀ k, s.part.orders.selftest = some k →
          CellFinished k (if t.outcomes.toList.contains 2 then .fail else .pass)
            (Accel.all.map (fun c => wordOfNat (t.outcomes.get c))) s.part q ∧
          q.orders = { s.part.orders with selftest := none } ∧
          Part.raisesOnly [.order] s.part q ∧ Part.storesOnly (cellAnswerByte k) s.part q ∧
          Part.keeps [.exch, .attn, .orders, .vib] s.part q))

/-- At a frame every running hold falls by one; the end of each that comes to 0 is due, groups in their order
(log 16), and the publishing behind. The publishing puts in force the factor of the group state (32767
for DISABLED and NORMAL, else the alert, danger or lost factor), the smaller of it and that of the held
state while a hold runs, shows the hold's remaining frames or 0, and the band as the number of edges at
or below the drive speed. When due, the end of a hold ends it and puts the factor of the group state in
force. Nothing else changes. (R146) -/
def Obligations.DerateHoldEnded : Prop :=
  let factor := fun (x : GroupParams) (state : VibState) => match state with
    | .disabled | .normal => 32767
    | .alert => x.alertFactor
    | .danger => x.dangerFactor
    | .lost => x.lostFactor
  (∀ p : Part,
    let work := runWork (.frameOf .vibration) p
    let ends : VibGroup → Bool := fun g => match (p.vib.group.get g).hold with
      | some h => h.remaining ≤ 1
      | none => false
    work.part.vib = { p.vib with group := work.part.vib.group } ∧ Part.keeps [.vib] p work.part ∧
    (∀ g, let old := p.vib.group.get g
      work.part.vib.group.get g =
        { old with hold := old.hold.map (fun h => { h with remaining := h.remaining - 1 }) }) ∧
    work.due = ([.pinionA, .pinionB, .gear, .tyre].filter ends).map Work.derateHoldExpiry ++
      [.vibrationPublish]) ∧
  (∀ p : Part,
    let work := runWork .vibrationPublish p
    work.due = [] ∧ Part.keeps [.vib] p work.part ∧
    work.part.vib = { p.vib with
      group := work.part.vib.group, published := true
      band := (p.settings.edges.filter (fun edge => edge ≤ p.acq.driveSpeed)).length } ∧
    ∀ g, let old := p.vib.group.get g
      let params := p.settings.groups.get g
      (old.hold = none →
        work.part.vib.group.get g = { old with factor := factor params old.state, holdShown := 0 }) ∧
      (∀ h, old.hold = some h →
        work.part.vib.group.get g = { old with
          factor := min (factor params h.held) (factor params old.state)
          holdShown := h.remaining })) ∧
  (∀ (g : VibGroup) (s : State) (rest : List Work), s.agenda = .derateHoldExpiry g :: rest →
    let w := s.part.vib.group.get g
    let params := s.part.settings.groups.get g
    exec (.derateHoldExpiry g) s = .next (drain { s with
      agenda := rest
      part := s.part.setVib { s.part.vib with
        group := s.part.vib.group.set g
          { w with hold := none, factor := factor params w.state } } }))

/-- When due with a slot FILLING, the slot's state word becomes READY and no other byte changes, no slot is
filling, RECORD is made pending and nothing else changes. With none filling nothing changes. (R170, R167) -/
def Obligations.RecordClosed : Prop :=
  ∀ (s : State) (rest : List Work), s.agenda = .recordClose :: rest →
    Memory.wf s.part.exch.mem = true →
    ∃ q, exec .recordClose s = .next (drain { s with agenda := rest, part := q }) ∧
      (s.part.trip.filling = none → q = s.part) ∧
      (∀ f, s.part.trip.filling = some f →
        slotState q f.slot = 2#16 ∧ q.trip = { s.part.trip with filling := none } ∧
        Part.storesOnly (fun a => a = slotOffset f.slot ∨ a = slotOffset f.slot + 1) s.part q ∧
        Part.raisesOnly [.record] s.part q ∧ Part.keeps [.exch, .attn, .trip] s.part q)

/-- In every state the INHIBIT line of a motor is asserted if and only if the motor is STOPPED, TRIPPED or
OUT, or a cause of class INHIBIT_ONE that belongs to it or any cause of class INHIBIT_ALL is latched, or
a reset is in progress. (R91) -/
def Obligations.InhibitLines : Prop :=
  ∀ (p : Part) (m : Motor),
    inhibitLine p m = true ↔
      (p.motorState m = .stopped ∨ p.motorState m = .tripped ∨ p.motorState m = .out) ∨
      (∃ x ∈ p.trip.latched,
        (x.cls = .inhibitOne ∧ x.cause.owner = some m) ∨ x.cls = .inhibitAll) ∨
      p.phase ≠ .ready

/-- When due, the samples of the open block stand as signed words from base + 512 times the blocks written,
in order, and no other byte changes; blocks written go up by one and remaining down by one, the block's
INVALID_RANGE and INVALID_LATE notes are added to the counts, the first invalid sample ever is kept, and
the block and its notes are empty. The completion is due when none remains. Nothing else changes. (R179,
R185) -/
def Obligations.CaptureBlockWritten : Prop :=
  ∀ (e : EngineId) (s : State) (rest : List Work), s.agenda = .captureBlockWrite e :: rest →
    Memory.wf s.part.exch.mem = true →
    let old := s.part.cap.get e
    let base := old.base + 512 * old.written
    ∃ q, exec (.captureBlockWrite e) s = .next (drain { s with
        agenda := (if old.remaining ≤ 1 then [.captureComplete e] else []) ++ rest, part := q }) ∧
      readWords q.exch.mem base old.block.length = old.block.map wordOf ∧
      Part.storesOnly (fun a => base ≤ a ∧ a < base + 2 * old.block.length) s.part q ∧
      q.cap = s.part.cap.set e { old with
        written := old.written + 1, remaining := old.remaining - 1, block := [], notes := []
        rangeCount := old.rangeCount + old.notes.countP (fun x => x.mark == .invalidRange)
        lateCount := old.lateCount + old.notes.countP (fun x => x.mark == .invalidLate)
        firstInvalid := match old.firstInvalid with
          | some x => some x
          | none => old.notes.head?.map
              (fun x => { index := 256 * old.written + x.index, mark := x.mark }) } ∧
      Part.keeps [.exch, .cap] s.part q

/-- When due, the engine is IDLE with no block remaining, its cell is finished OK with the eight result
values of R185, CAPTURE is made pending, and the other engine, if it is ARMED with AFTER_OTHER, becomes
RUNNING. Nothing else changes. (R183, R181, R185) -/
def Obligations.CaptureCompleted : Prop :=
  ∀ (e : EngineId) (s : State) (rest : List Work), s.agenda = .captureComplete e :: rest →
    Memory.wf s.part.exch.mem = true →
    let old := s.part.cap.get e
    let other := s.part.cap.get e.other
    let values := [wordOfNat old.written, wordOfNat old.rangeCount, wordOfNat old.lateCount] ++
      (match old.firstInvalid with
        | some x => [wordOfNat x.index, wordOfNat x.mark.code]
        | none => [0xFFFF#16, 0#16]) ++
      (match old.firstTime with
        | some x => wordsOf32 x.1 ++ [wordOfNat x.2]
        | none => [0#16, 0#16, 0#16])
    ∃ q, exec (.captureComplete e) s = .next (drain { s with agenda := rest, part := q }) ∧
      q.cap.get e = { old with state := .idle, remaining := 0 } ∧
      q.cap.get e.other =
        (if other.state = .armed ∧ other.start = .afterOther then { other with state := .running }
        else other) ∧
      (s.part.orders.capture.get e = none →
        Part.raisesOnly [.capture] s.part q ∧ Part.keeps [.attn, .cap] s.part q) ∧
      (∀ k, s.part.orders.capture.get e = some k →
        CellFinished k .ok values s.part q ∧
        q.orders = { s.part.orders with capture := s.part.orders.capture.set e none } ∧
        Part.raisesOnly [.order, .capture] s.part q ∧
        Part.storesOnly (cellAnswerByte k) s.part q ∧
        Part.keeps [.exch, .attn, .orders, .cap] s.part q)

/-- For every n, isqrt n is the largest r with r squared at most n. For every n of at least 1, the rounded
shift by n of x is the whole number r with r times 2^n at most x plus 2^(n-1) and less than one step
above. Saturation gives x within -32767 to 32767 and the nearer end outside. (00_scope.md) -/
def Obligations.FloorRootAndShift : Prop :=
  (∀ n : Nat, isqrt n * isqrt n ≤ n ∧ n < (isqrt n + 1) * (isqrt n + 1)) ∧
  (∀ (n : Nat) (x : Int), 1 ≤ n →
    roundedShift n x * 2 ^ n ≤ x + 2 ^ (n - 1) ∧ x + 2 ^ (n - 1) < (roundedShift n x + 1) * 2 ^ n) ∧
  (∀ x : Int, (-32767 ≤ x → x ≤ 32767 → saturate x = x) ∧ (x < -32767 → saturate x = -32767) ∧
    (32767 < x → saturate x = 32767))

/-- At a frame each motor's snapshot and flag rings drop the oldest entry and take the newest; the speed is
valid exactly if no flag in the ring is set, and is then the saturated rounded shift by 16 of the count
difference times KSPD, else it is kept; the invalid run goes up by one to 255, or to 0 for a valid speed
or a motor OUT. The drive speed is the mean, the one valid speed, or held. The overspeed and mismatch
runs follow from them: ENCODER_LOST is due at 8, OVERSPEED at 4, and SPEED_MISMATCH when the run has come
to its persistence and its mark is not set. The mark and the condition are the model's reading (logs 23
and 24): the mark is set from then to the end of the run, and the condition is the last judgement, absent
while a motor is OUT and kept while a speed is invalid. Nothing else changes. (R53, R54, R55, R56, R57,
R58) -/
def Obligations.SpeedsFormed : Prop :=
  ∀ p : Part,
    let work := runWork (.frameOf .acquisition) p
    let q := work.part
    let speed := fun m => (q.acq.enc.get m).speed
    let used := fun m => p.motorState m ≠ .out ∧ (q.acq.enc.get m).speedValid = true
    let apart : Prop := used .a ∧ used .b ∧
      p.settings.mismatchTolerance < ((speed .a - speed .b).natAbs : Int)
    Part.keeps [.acq] p q ∧
    q.acq = { p.acq with
      enc := q.acq.enc, driveSpeed := q.acq.driveSpeed, driveHeld := q.acq.driveHeld
      overspeedRun := q.acq.overspeedRun, mismatchRun := q.acq.mismatchRun
      mismatchReported := q.acq.mismatchReported, mismatchPresent := q.acq.mismatchPresent
      published := true } ∧
    (∀ m, let e := p.acq.enc.get m
      let e' := q.acq.enc.get m
      e' = { e with
        snapshots := e.snapshots.drop 1 ++ [e.counter]
        flags := e.flags.drop 1 ++ [e.disturbed || !e.valid], disturbed := !e.valid
        speed := e'.speed, speedValid := e'.speedValid, invalidRun := e'.invalidRun } ∧
      (e'.speedValid = true ↔ ∀ flag ∈ e'.flags, flag = false) ∧
      (e'.speedValid = true → e'.speed = saturate
        (roundedShift 16 ((e.counter - e.snapshots.headD 0#32).toInt * p.orders.ratings.kspd))) ∧
      (e'.speedValid = false → e'.speed = e.speed) ∧
      (e'.speedValid = true ∨ p.motorState m = .out → e'.invalidRun = 0) ∧
      (e'.speedValid = false → p.motorState m ≠ .out →
        e'.invalidRun = min 255 (e.invalidRun + 1)) ∧
      (Work.encoderLost m ∈ work.due ↔ e'.invalidRun = 8)) ∧
    (used .a → used .b → q.acq.driveSpeed = (speed .a + speed .b).tdiv 2 ∧ q.acq.driveHeld = false) ∧
    (∀ m, used m → ¬ used m.other → q.acq.driveSpeed = speed m ∧ q.acq.driveHeld = false) ∧
    (¬ used .a → ¬ used .b → q.acq.driveSpeed = p.acq.driveSpeed ∧ q.acq.driveHeld = true) ∧
    (let limit := (p.settings.maxSpeed * 9).tdiv 8
     (limit < (q.acq.driveSpeed.natAbs : Int) →
        q.acq.overspeedRun = min 255 (p.acq.overspeedRun + 1)) ∧
     ((q.acq.driveSpeed.natAbs : Int) ≤ limit → q.acq.overspeedRun = 0)) ∧
    (Work.overspeed ∈ work.due ↔ q.acq.overspeedRun = 4) ∧
    (apart → q.acq.mismatchRun = min 255 (p.acq.mismatchRun + 1)) ∧
    (¬ apart → q.acq.mismatchRun = 0) ∧
    (Work.speedMismatch ∈ work.due ↔
      apart ∧ p.settings.mismatchPersistence ≤ q.acq.mismatchRun ∧ p.acq.mismatchReported = false) ∧
    (q.acq.mismatchReported = true ↔ apart ∧
      (p.acq.mismatchReported = true ∨ p.settings.mismatchPersistence ≤ q.acq.mismatchRun)) ∧
    (used .a → used .b → (q.acq.mismatchPresent = true ↔ apart)) ∧
    (p.motorState .a = .out ∨ p.motorState .b = .out → q.acq.mismatchPresent = false) ∧
    (∀ m, p.motorState .a ≠ .out → p.motorState .b ≠ .out → ¬ used m →
      q.acq.mismatchPresent = p.acq.mismatchPresent)

/-- At a frame each H steps toward its heating input and never passes it; each limit in force is the smallest
of its candidates (sequencer or trip, thermal, vibration, base, gear cap), its source that of the first
with this value in that order, and the source of the direction of the frame is shown; the demand held
within the gear caps is divided under them into torque references, converted to iq references within
IQLIM; estimates follow from the measured iq and the overload run from their sum. LIMIT is made pending
exactly on a change of a shown source or of the flag. GEAR_OVERLOAD is due at its persistence, once in a
run by the marks of log 23. A motor not OUT at its trip level, with THERMAL escalated and not latched for
it, is a trip event of THERMAL: class INHIBIT_ONE if bit 4 of the class choices is set, else RAMP_ALL,
with the order of that class. Three points are the model's choice: what the marks do (log 23), that
BREAKAWAY names the base limit of the regenerating direction too (log 31), and that A comes before B, and
both before the gear (log 33). (R119, R120, R121, R122, R123, R124, R125, R126, R132, R133, R156, R158) -/
def Obligations.AllotmentFramed : Prop :=
  ∀ p : Part,
    let work := runWork (.frameOf .allotment) p
    let q := work.part
    let st := p.settings
    let ratings := p.orders.ratings
    let demand := max (-st.capRegenerating) (min st.capMotoring p.seq.demand)
    let limit := fun m => if 0 ≤ demand then (q.allot.motor.get m).motoring
      else (q.allot.motor.get m).regenerating
    let share := divideDemand demand st.shareA (limit .a) (limit .b)
    let total := (q.allot.motor.get .a).estimate + (q.allot.motor.get .b).estimate
    (∀ m, let r := p.allot.motor.get m
      let r' := q.allot.motor.get m
      let current := (p.ctl.get m).id * (p.ctl.get m).id + (p.ctl.get m).iq * (p.ctl.get m).iq
      let heat : Int := if p.motorState m = .magnetizing ∨ p.motorState m = .running ∨
          p.motorState m = .stopping then
        min 65535 ((current * 16384).tdiv (ratings.ratedCurrent * ratings.ratedCurrent)) else 0
      let level := r'.thermalH / 65536
      let factor := min (p.vib.group.get (match m with | .a => .pinionA | .b => .pinionB)).factor
        (min (p.vib.group.get .gear).factor (p.vib.group.get .tyre).factor)
      let named : LimitSource :=
        if p.seq.group = .starting ∧ st.motoringLimit ≤ st.breakawayLimit then .breakaway else .settings
      let candidates := fun base cap : Int =>
        (match p.motorState m with
          | .stopped | .magnetizing | .tripped | .out => [((0 : Int), LimitSource.sequencer)]
          | .stopping => if (p.seq.motor.get m).ramping then [((p.seq.motor.get m).ramp, .trip)] else []
          | .running => []) ++
        (if level ≤ st.thermalStart then []
          else if st.thermalTrip ≤ level then [(0, .thermal)]
          else [((base * ((st.thermalTrip : Int) - level)).tdiv
            ((st.thermalTrip : Int) - st.thermalStart), .thermal)]) ++
        (if factor < 32767 then [(roundedShift 15 (base * factor), .vibration)] else []) ++
        [(base, named), (cap, .gear)]
      let motoring := candidates (if p.seq.group = .starting then
        max st.motoringLimit st.breakawayLimit else st.motoringLimit) st.capMotoring
      let regenerating := candidates st.regeneratingLimit st.capRegenerating
      (r'.thermalH : Int) = r.thermalH + (heat * 65536 - r.thermalH) / 2 ^ st.thermalShift ∧
      min (r.thermalH : Int) (heat * 65536) ≤ r'.thermalH ∧
      (r'.thermalH : Int) ≤ max (r.thermalH : Int) (heat * 65536) ∧
      (∀ x ∈ motoring, r'.motoring ≤ x.1) ∧
      motoring.find? (fun x => x.1 == r'.motoring) = some (r'.motoring, r'.motoringSource) ∧
      (∀ x ∈ regenerating, r'.regenerating ≤ x.1) ∧
      regenerating.find? (fun x => x.1 == r'.regenerating) =
        some (r'.regenerating, r'.regeneratingSource) ∧
      r'.shown = (if 0 ≤ demand then r'.motoringSource else r'.regeneratingSource) ∧
      r'.torqueRef = (match m with | .a => share.a | .b => share.b) ∧
      r'.iqRef = clampTo (-ratings.iqLimit) ratings.iqLimit
        (roundedShift 12 (r'.torqueRef * ratings.kti)) ∧
      r'.estimate = saturate (roundedShift 12 ((p.ctl.get m).iq * ratings.kit))) ∧
    (Memory.wf p.exch.mem = true →
    let reportOf := fun (m : Motor) (x y : Part) =>
      let order := if st.classChoices.getLsbD 4 then inhibitOneOrder m x else rampAllOrder x
      if p.motorState m ≠ .out ∧ st.escalation.getLsbD 4 = true ∧
          st.thermalTrip ≤ (q.allot.motor.get m).thermalH / 65536 ∧
          isLatched x.trip.latched (.thermal m) = false then
        TripTaken (.thermal m) (if st.classChoices.getLsbD 4 then .inhibitOne else .rampAll) x y ∧
          y.seq = order.seq
      else y = x
    ∃ p₀ p₁, p₀.allot = q.allot ∧ Part.keeps [.allot, .attn] p p₀ ∧
      Part.raisesOnly (if q.allot.limitRaised then [.limit] else []) p p₀ ∧
      reportOf .a p₀ p₁ ∧ reportOf .b p₁ q) ∧
    q.allot.groupLimited =
      (if share.remainder ≤ 0 then 0 else if 0 ≤ demand then 1 else 2) ∧
    q.allot.gearRun =
      (if st.gearTripLevel ≤ total.natAbs then min 255 (p.allot.gearRun + 1) else 0) ∧
    (let overload : Prop := st.gearTripLevel ≤ total.natAbs
     let due : Prop := overload ∧ st.gearPersistence ≤ q.allot.gearRun ∧
      (if st.escalation.getLsbD 5 then p.allot.gearReported else p.allot.gearNoticed) = false
     (due → work.due = [.gearOverload]) ∧ (¬ due → work.due = []) ∧
     (q.allot.gearReported = true ↔ overload ∧ p.allot.gearReported = true) ∧
     (q.allot.gearNoticed = true ↔ overload ∧ p.allot.gearNoticed = true)) ∧
    (q.allot.motoringFrame = true ↔ 0 ≤ demand) ∧ q.allot.published = true ∧
    (q.allot.limitRaised = true ↔
      (∃ m, (q.allot.motor.get m).shown ≠ (p.allot.motor.get m).shown) ∨
      q.allot.groupLimited ≠ p.allot.groupLimited) ∧
    (q.raised .limit = true ↔ p.raised .limit = true ∨
      (∃ m, (q.allot.motor.get m).shown ≠ (p.allot.motor.get m).shown) ∨
      q.allot.groupLimited ≠ p.allot.groupLimited) ∧
    ((∀ m, st.escalation.getLsbD 4 = false ∨ p.motorState m = .out ∨
        (q.allot.motor.get m).thermalH / 65536 < st.thermalTrip) →
      Part.keeps [.allot, .attn] p q)

/-- Current control takes each VALID sample of its three channels as the held value and counts the invalid
ones of its phase channels, reporting at 4. The vibration watch first brings a channel that is no longer
enabled to DISABLED and a newly enabled one to NORMAL, all else of it 0, and clears the windows and runs
of the others at a new window code, with VIBRATION raised exactly if a state changed; then every channel
not DISABLED filters its sample (the last input again for an invalid one) and, outside a self-test or
measuring in its set, adds its square to the window; a self-test counts one scan more, and its phase ends
at 64, W and 64. A RUNNING engine takes the value of its channel with its mark, and its block is due to
be written at 256 samples. The fast ring takes one entry and keeps the last 32. Each receiver changes its
own block alone. Four points are the model's choice: the computation of a motor is due last, behind a
sensor report (log 32); the groups are formed once, behind every window end of the scan (log 21); a
window code is new when it differs from the one the watch used last (log 14); and a changed enable set or
window code acts, with VIBRATION raised, also at a scan during a self-test, where R150 holds the states
(log 15). (R37, R38, R66, R67, R136, R137, R138, R149, R166, R178, R179) -/
def Obligations.ScanReceived : Prop :=
  ∀ p : Part,
    let sample := fun ch : Nat => p.acq.scan.getD ch { value := 0, mark := .valid }
    (∀ m, let work := runWork (.scanTo (match m with | .a => .controlA | .b => .controlB)) p
      let c := p.ctl.get m
      let c' := work.part.ctl.get m
      let phase := match m with | .a => 0 | .b => 2
      let held := fun (old : Int) (s : Sample) => if s.mark = .valid then s.value else old
      let run := fun (old : Nat) (s : Sample) =>
        if s.mark = .valid ∨ p.motorState m = .out then 0 else min 255 (old + 1)
      Part.keeps [.ctl] p work.part ∧ work.part.ctl.get m.other = p.ctl.get m.other ∧
      c' = { c with
        heldA := held c.heldA (sample phase), heldB := held c.heldB (sample (phase + 1))
        heldUdc := held c.heldUdc (sample (match m with | .a => 4 | .b => 5))
        runA := run c.runA (sample phase), runB := run c.runB (sample (phase + 1)) } ∧
      (Work.currentSensorLost m ∈ work.due ↔ c'.runA = 4 ∨ c'.runB = 4) ∧
      work.due.getLast? = some (.controlCompute m)) ∧
    (let work := runWork (.scanTo .vibration) p
     let vib := work.part.vib
     let window := 2 ^ p.settings.windowCode
     let fresh := fun state : ChannelState =>
      ({ xPrev := 0, yPrev := 0, accumulator := 0, samples := 0, invalid := 0, alertRun := 0
         dangerRun := 0, level := 0, state } : Channel)
     let applied := fun c : Accel =>
      let old := p.vib.channel.get c
      if p.settings.enables c = false then
        if old.state = .disabled then old else fresh .disabled
      else if old.state = .disabled then fresh .normal
      else if p.settings.windowCode = p.vib.windowCode then old
      else { old with accumulator := 0, samples := 0, invalid := 0, alertRun := 0, dangerRun := 0 }
     let counted := fun c : Accel => p.vib.test = none ∨
      ∃ t, p.vib.test = some t ∧ t.phase = .measuring ∧ t.set.get c = true
     Part.keeps [.vib, .attn] p work.part ∧
     vib = { p.vib with
      channel := vib.channel, windowCode := p.settings.windowCode
      test := p.vib.test.map (fun t => { t with count := t.count + 1 }) } ∧
     ((∃ c, (applied c).state ≠ (p.vib.channel.get c).state) →
      Part.raisesOnly [.vibration] p work.part) ∧
     ((∀ c, (applied c).state = (p.vib.channel.get c).state) → work.part.attn = p.attn) ∧
     (∀ c,
      let old := applied c
      let s := sample (6 + c.number)
      let x := if s.mark = .valid then s.value else old.xPrev
      let y := saturate (x - old.xPrev + roundedShift 15 (p.settings.highPass * old.yPrev))
      (old.state = .disabled → vib.channel.get c = old) ∧
      (old.state ≠ .disabled → ¬ counted c →
        vib.channel.get c = { old with xPrev := x, yPrev := y }) ∧
      (old.state ≠ .disabled → counted c → vib.channel.get c = { old with
        xPrev := x, yPrev := y, accumulator := old.accumulator + y.natAbs * y.natAbs
        samples := old.samples + 1
        invalid := if s.mark = .valid then old.invalid else old.invalid + 1 })) ∧
     (p.vib.test = none → work.due.getLast? = some .vibrationGroups ∧
      ∀ c, Work.windowEnd c ∈ work.due ↔
        (vib.channel.get c).state ≠ .disabled ∧ window ≤ (vib.channel.get c).samples) ∧
     (∀ t, p.vib.test = some t → work.due = (match t.phase with
      | .settling => if 64 ≤ t.count + 1 then [.selftestSettlingEnd] else []
      | .measuring => if window ≤ t.count + 1 then [.selftestMeasuringEnd] else []
      | .recovering => if 64 ≤ t.count + 1 then [.selftestEnd] else []))) ∧
    (let work := runWork (.scanTo .capture) p
     Part.keeps [.cap] p work.part ∧
     ∀ e, let old := p.cap.get e
      let new := work.part.cap.get e
      let s := sample old.channel
      (old.state ≠ .running → new = old) ∧
      (old.state = .running →
        new = { old with
          block := old.block ++ [s.value], notes := new.notes
          firstTime := some (old.firstTime.getD (p.acq.frameCount, p.acq.period)) } ∧
        new.notes = (if s.mark = .valid then old.notes
          else old.notes ++ [{ index := old.block.length, mark := s.mark }])) ∧
      (Work.captureBlockWrite e ∈ work.due ↔ old.state = .running ∧ 256 ≤ old.block.length + 1)) ∧
    (let work := runWork (.scanTo .fastRing) p
     work.due = [] ∧ Part.keeps [.trip] p work.part ∧
     ∃ x : FastEntry, x.samples = p.acq.scan.take 6 ∧ x.period = p.acq.period ∧
      x.frame = p.acq.frameCount.toNat % 8192 ∧
      work.part.trip = { p.trip with fast := work.part.trip.fast } ∧
      (p.trip.fast.length < 32 → work.part.trip.fast = p.trip.fast ++ [x]) ∧
      (p.trip.fast.length = 32 → work.part.trip.fast = p.trip.fast.tail ++ [x]))

/-- At a frame the history ring takes one entry with the frame count, the motors' states, shown sources, iq
references, currents limits and speeds, the group levels (the greatest level of a channel of the group in
NORMAL, ALERT or DANGER, 0 with none), the group state and the vibration states, sixteen words by the
layout of R165, and keeps the last 512. With a slot FILLING the entry stands as the next of its sixteen-
word places, the post-trip count in the header goes up by one, no other byte changes, and the close is
due exactly at the sampled post-trip length. With none nothing else changes. That the record's count of
frame events for follow-ons goes up also in the frame of the trip is the model's choice (log 37). (R152,
R165, R170) -/
def Obligations.HistoryAppended : Prop :=
  ∀ p : Part, Memory.wf p.exch.mem = true →
    let work := runWork (.frameOf .trip) p
    let q := work.part
    Part.keeps [.trip, .exch] p q ∧
    ∃ x : HistoryEntry, x.frame.toNat = p.acq.frameCount.toNat % 65536 ∧
      (∀ m, let h := x.motor.get m
        h.state = p.motorState m ∧ h.shown = (p.allot.motor.get m).shown ∧
        h.iqRef = (p.allot.motor.get m).iqRef ∧ h.iq = (p.ctl.get m).iq ∧
        h.limit = (if p.allot.motoringFrame then (p.allot.motor.get m).motoring
          else (p.allot.motor.get m).regenerating) ∧
        h.speed = (p.acq.enc.get m).speed) ∧
      x.drive = p.seq.group ∧ (∀ g, x.vib.get g = (p.vib.group.get g).state) ∧
      (let counts := fun c : Accel => (p.vib.channel.get c).state = .normal ∨
        (p.vib.channel.get c).state = .alert ∨ (p.vib.channel.get c).state = .danger
       ∀ g, x.level.get g = groupLevel p g ∧
        (∀ c : Accel, c.group = g → counts c → (p.vib.channel.get c).level ≤ x.level.get g) ∧
        (x.level.get g = 0 ∨ ∃ c : Accel, c.group = g ∧ counts c ∧
          x.level.get g = (p.vib.channel.get c).level)) ∧
      (let motor := fun h : HistoryMotor =>
        [wordOfNat (h.state.code + 256 * h.shown.code), wordOf h.iqRef, wordOf h.iq, wordOf h.limit,
         wordOf h.speed]
       x.words = [x.frame] ++ motor x.motor.a ++ motor x.motor.b ++
        [wordOfNat x.level.pinionA, wordOfNat x.level.pinionB, wordOfNat x.level.gear,
         wordOfNat x.level.tyre] ++
        [wordOfNat (x.drive.code + 8 * x.vib.pinionA.code + 64 * x.vib.pinionB.code +
          512 * x.vib.gear.code + 4096 * x.vib.tyre.code)]) ∧
      (p.trip.history.length < 512 → q.trip.history = p.trip.history ++ [x]) ∧
      (p.trip.history.length = 512 → q.trip.history = p.trip.history.tail ++ [x]) ∧
      (p.trip.filling = none →
        work.due = [] ∧ q.exch = p.exch ∧ q.trip = { p.trip with history := q.trip.history }) ∧
      (∀ f, p.trip.filling = some f →
        let place := slotOffset f.slot + 0x400 + 32 * (f.preWritten + f.postWritten)
        work.due = (if f.postWritten + 1 = f.postTrip then [.recordClose] else []) ∧
        q.trip = { p.trip with
          history := q.trip.history
          filling := some { f with postWritten := f.postWritten + 1, frames := f.frames + 1 } } ∧
        readWords q.exch.mem place 16 = x.words ∧
        readWord q.exch.mem (slotOffset f.slot + 0x2C) = wordOfNat (f.postWritten + 1) ∧
        Part.storesOnly (fun a => (place ≤ a ∧ a < place + 32) ∨
          a = slotOffset f.slot + 0x2C ∨ a = slotOffset f.slot + 0x2D) p q)
end

