-- ==== Sys2Proof/Laws/State.lean ====
section
/-! SUPPORT. What each update of a block leaves of the part: one lemma per field per update, true by rfl. -/

namespace Sys2Proof.Machine

/-! ### `Part.setPhase` -/

@[simp] theorem Part.setPhase_phase (p : Part) (v : Phase) : (p.setPhase v).phase = v := rfl
@[simp] theorem Part.setPhase_pins (p : Part) (v : Phase) : (p.setPhase v).pins = p.pins := rfl
@[simp] theorem Part.setPhase_exch (p : Part) (v : Phase) : (p.setPhase v).exch = p.exch := rfl
@[simp] theorem Part.setPhase_attn (p : Part) (v : Phase) : (p.setPhase v).attn = p.attn := rfl
@[simp] theorem Part.setPhase_orders (p : Part) (v : Phase) : (p.setPhase v).orders = p.orders := rfl
@[simp] theorem Part.setPhase_acq (p : Part) (v : Phase) : (p.setPhase v).acq = p.acq := rfl
@[simp] theorem Part.setPhase_ctl (p : Part) (v : Phase) : (p.setPhase v).ctl = p.ctl := rfl
@[simp] theorem Part.setPhase_links (p : Part) (v : Phase) : (p.setPhase v).links = p.links := rfl
@[simp] theorem Part.setPhase_seq (p : Part) (v : Phase) : (p.setPhase v).seq = p.seq := rfl
@[simp] theorem Part.setPhase_allot (p : Part) (v : Phase) : (p.setPhase v).allot = p.allot := rfl
@[simp] theorem Part.setPhase_vib (p : Part) (v : Phase) : (p.setPhase v).vib = p.vib := rfl
@[simp] theorem Part.setPhase_trip (p : Part) (v : Phase) : (p.setPhase v).trip = p.trip := rfl
@[simp] theorem Part.setPhase_cap (p : Part) (v : Phase) : (p.setPhase v).cap = p.cap := rfl

/-! ### `Part.setPins` -/

@[simp] theorem Part.setPins_phase (p : Part) (v : Pins) : (p.setPins v).phase = p.phase := rfl
@[simp] theorem Part.setPins_pins (p : Part) (v : Pins) : (p.setPins v).pins = v := rfl
@[simp] theorem Part.setPins_exch (p : Part) (v : Pins) : (p.setPins v).exch = p.exch := rfl
@[simp] theorem Part.setPins_attn (p : Part) (v : Pins) : (p.setPins v).attn = p.attn := rfl
@[simp] theorem Part.setPins_orders (p : Part) (v : Pins) : (p.setPins v).orders = p.orders := rfl
@[simp] theorem Part.setPins_acq (p : Part) (v : Pins) : (p.setPins v).acq = p.acq := rfl
@[simp] theorem Part.setPins_ctl (p : Part) (v : Pins) : (p.setPins v).ctl = p.ctl := rfl
@[simp] theorem Part.setPins_links (p : Part) (v : Pins) : (p.setPins v).links = p.links := rfl
@[simp] theorem Part.setPins_seq (p : Part) (v : Pins) : (p.setPins v).seq = p.seq := rfl
@[simp] theorem Part.setPins_allot (p : Part) (v : Pins) : (p.setPins v).allot = p.allot := rfl
@[simp] theorem Part.setPins_vib (p : Part) (v : Pins) : (p.setPins v).vib = p.vib := rfl
@[simp] theorem Part.setPins_trip (p : Part) (v : Pins) : (p.setPins v).trip = p.trip := rfl
@[simp] theorem Part.setPins_cap (p : Part) (v : Pins) : (p.setPins v).cap = p.cap := rfl

/-! ### `Part.setExch` -/

@[simp] theorem Part.setExch_phase (p : Part) (v : Exchange) : (p.setExch v).phase = p.phase := rfl
@[simp] theorem Part.setExch_pins (p : Part) (v : Exchange) : (p.setExch v).pins = p.pins := rfl
@[simp] theorem Part.setExch_exch (p : Part) (v : Exchange) : (p.setExch v).exch = v := rfl
@[simp] theorem Part.setExch_attn (p : Part) (v : Exchange) : (p.setExch v).attn = p.attn := rfl
@[simp] theorem Part.setExch_orders (p : Part) (v : Exchange) : (p.setExch v).orders = p.orders := rfl
@[simp] theorem Part.setExch_acq (p : Part) (v : Exchange) : (p.setExch v).acq = p.acq := rfl
@[simp] theorem Part.setExch_ctl (p : Part) (v : Exchange) : (p.setExch v).ctl = p.ctl := rfl
@[simp] theorem Part.setExch_links (p : Part) (v : Exchange) : (p.setExch v).links = p.links := rfl
@[simp] theorem Part.setExch_seq (p : Part) (v : Exchange) : (p.setExch v).seq = p.seq := rfl
@[simp] theorem Part.setExch_allot (p : Part) (v : Exchange) : (p.setExch v).allot = p.allot := rfl
@[simp] theorem Part.setExch_vib (p : Part) (v : Exchange) : (p.setExch v).vib = p.vib := rfl
@[simp] theorem Part.setExch_trip (p : Part) (v : Exchange) : (p.setExch v).trip = p.trip := rfl
@[simp] theorem Part.setExch_cap (p : Part) (v : Exchange) : (p.setExch v).cap = p.cap := rfl

/-! ### `Part.setAttn` -/

@[simp] theorem Part.setAttn_phase (p : Part) (v : Attention) : (p.setAttn v).phase = p.phase := rfl
@[simp] theorem Part.setAttn_pins (p : Part) (v : Attention) : (p.setAttn v).pins = p.pins := rfl
@[simp] theorem Part.setAttn_exch (p : Part) (v : Attention) : (p.setAttn v).exch = p.exch := rfl
@[simp] theorem Part.setAttn_attn (p : Part) (v : Attention) : (p.setAttn v).attn = v := rfl
@[simp] theorem Part.setAttn_orders (p : Part) (v : Attention) : (p.setAttn v).orders = p.orders := rfl
@[simp] theorem Part.setAttn_acq (p : Part) (v : Attention) : (p.setAttn v).acq = p.acq := rfl
@[simp] theorem Part.setAttn_ctl (p : Part) (v : Attention) : (p.setAttn v).ctl = p.ctl := rfl
@[simp] theorem Part.setAttn_links (p : Part) (v : Attention) : (p.setAttn v).links = p.links := rfl
@[simp] theorem Part.setAttn_seq (p : Part) (v : Attention) : (p.setAttn v).seq = p.seq := rfl
@[simp] theorem Part.setAttn_allot (p : Part) (v : Attention) : (p.setAttn v).allot = p.allot := rfl
@[simp] theorem Part.setAttn_vib (p : Part) (v : Attention) : (p.setAttn v).vib = p.vib := rfl
@[simp] theorem Part.setAttn_trip (p : Part) (v : Attention) : (p.setAttn v).trip = p.trip := rfl
@[simp] theorem Part.setAttn_cap (p : Part) (v : Attention) : (p.setAttn v).cap = p.cap := rfl

/-! ### `Part.setOrders` -/

@[simp] theorem Part.setOrders_phase (p : Part) (v : OrderUnit) : (p.setOrders v).phase = p.phase := rfl
@[simp] theorem Part.setOrders_pins (p : Part) (v : OrderUnit) : (p.setOrders v).pins = p.pins := rfl
@[simp] theorem Part.setOrders_exch (p : Part) (v : OrderUnit) : (p.setOrders v).exch = p.exch := rfl
@[simp] theorem Part.setOrders_attn (p : Part) (v : OrderUnit) : (p.setOrders v).attn = p.attn := rfl
@[simp] theorem Part.setOrders_orders (p : Part) (v : OrderUnit) : (p.setOrders v).orders = v := rfl
@[simp] theorem Part.setOrders_acq (p : Part) (v : OrderUnit) : (p.setOrders v).acq = p.acq := rfl
@[simp] theorem Part.setOrders_ctl (p : Part) (v : OrderUnit) : (p.setOrders v).ctl = p.ctl := rfl
@[simp] theorem Part.setOrders_links (p : Part) (v : OrderUnit) : (p.setOrders v).links = p.links := rfl
@[simp] theorem Part.setOrders_seq (p : Part) (v : OrderUnit) : (p.setOrders v).seq = p.seq := rfl
@[simp] theorem Part.setOrders_allot (p : Part) (v : OrderUnit) : (p.setOrders v).allot = p.allot := rfl
@[simp] theorem Part.setOrders_vib (p : Part) (v : OrderUnit) : (p.setOrders v).vib = p.vib := rfl
@[simp] theorem Part.setOrders_trip (p : Part) (v : OrderUnit) : (p.setOrders v).trip = p.trip := rfl
@[simp] theorem Part.setOrders_cap (p : Part) (v : OrderUnit) : (p.setOrders v).cap = p.cap := rfl

/-! ### `Part.setAcq` -/

@[simp] theorem Part.setAcq_phase (p : Part) (v : Acquisition) : (p.setAcq v).phase = p.phase := rfl
@[simp] theorem Part.setAcq_pins (p : Part) (v : Acquisition) : (p.setAcq v).pins = p.pins := rfl
@[simp] theorem Part.setAcq_exch (p : Part) (v : Acquisition) : (p.setAcq v).exch = p.exch := rfl
@[simp] theorem Part.setAcq_attn (p : Part) (v : Acquisition) : (p.setAcq v).attn = p.attn := rfl
@[simp] theorem Part.setAcq_orders (p : Part) (v : Acquisition) : (p.setAcq v).orders = p.orders := rfl
@[simp] theorem Part.setAcq_acq (p : Part) (v : Acquisition) : (p.setAcq v).acq = v := rfl
@[simp] theorem Part.setAcq_ctl (p : Part) (v : Acquisition) : (p.setAcq v).ctl = p.ctl := rfl
@[simp] theorem Part.setAcq_links (p : Part) (v : Acquisition) : (p.setAcq v).links = p.links := rfl
@[simp] theorem Part.setAcq_seq (p : Part) (v : Acquisition) : (p.setAcq v).seq = p.seq := rfl
@[simp] theorem Part.setAcq_allot (p : Part) (v : Acquisition) : (p.setAcq v).allot = p.allot := rfl
@[simp] theorem Part.setAcq_vib (p : Part) (v : Acquisition) : (p.setAcq v).vib = p.vib := rfl
@[simp] theorem Part.setAcq_trip (p : Part) (v : Acquisition) : (p.setAcq v).trip = p.trip := rfl
@[simp] theorem Part.setAcq_cap (p : Part) (v : Acquisition) : (p.setAcq v).cap = p.cap := rfl

/-! ### `Part.setCtl` -/

@[simp] theorem Part.setCtl_phase (p : Part) (v : PerMotor Control) : (p.setCtl v).phase = p.phase := rfl
@[simp] theorem Part.setCtl_pins (p : Part) (v : PerMotor Control) : (p.setCtl v).pins = p.pins := rfl
@[simp] theorem Part.setCtl_exch (p : Part) (v : PerMotor Control) : (p.setCtl v).exch = p.exch := rfl
@[simp] theorem Part.setCtl_attn (p : Part) (v : PerMotor Control) : (p.setCtl v).attn = p.attn := rfl
@[simp] theorem Part.setCtl_orders (p : Part) (v : PerMotor Control) : (p.setCtl v).orders = p.orders := rfl
@[simp] theorem Part.setCtl_acq (p : Part) (v : PerMotor Control) : (p.setCtl v).acq = p.acq := rfl
@[simp] theorem Part.setCtl_ctl (p : Part) (v : PerMotor Control) : (p.setCtl v).ctl = v := rfl
@[simp] theorem Part.setCtl_links (p : Part) (v : PerMotor Control) : (p.setCtl v).links = p.links := rfl
@[simp] theorem Part.setCtl_seq (p : Part) (v : PerMotor Control) : (p.setCtl v).seq = p.seq := rfl
@[simp] theorem Part.setCtl_allot (p : Part) (v : PerMotor Control) : (p.setCtl v).allot = p.allot := rfl
@[simp] theorem Part.setCtl_vib (p : Part) (v : PerMotor Control) : (p.setCtl v).vib = p.vib := rfl
@[simp] theorem Part.setCtl_trip (p : Part) (v : PerMotor Control) : (p.setCtl v).trip = p.trip := rfl
@[simp] theorem Part.setCtl_cap (p : Part) (v : PerMotor Control) : (p.setCtl v).cap = p.cap := rfl

/-! ### `Part.setLinks` -/

@[simp] theorem Part.setLinks_phase (p : Part) (v : PerMotor Link) : (p.setLinks v).phase = p.phase := rfl
@[simp] theorem Part.setLinks_pins (p : Part) (v : PerMotor Link) : (p.setLinks v).pins = p.pins := rfl
@[simp] theorem Part.setLinks_exch (p : Part) (v : PerMotor Link) : (p.setLinks v).exch = p.exch := rfl
@[simp] theorem Part.setLinks_attn (p : Part) (v : PerMotor Link) : (p.setLinks v).attn = p.attn := rfl
@[simp] theorem Part.setLinks_orders (p : Part) (v : PerMotor Link) : (p.setLinks v).orders = p.orders := rfl
@[simp] theorem Part.setLinks_acq (p : Part) (v : PerMotor Link) : (p.setLinks v).acq = p.acq := rfl
@[simp] theorem Part.setLinks_ctl (p : Part) (v : PerMotor Link) : (p.setLinks v).ctl = p.ctl := rfl
@[simp] theorem Part.setLinks_links (p : Part) (v : PerMotor Link) : (p.setLinks v).links = v := rfl
@[simp] theorem Part.setLinks_seq (p : Part) (v : PerMotor Link) : (p.setLinks v).seq = p.seq := rfl
@[simp] theorem Part.setLinks_allot (p : Part) (v : PerMotor Link) : (p.setLinks v).allot = p.allot := rfl
@[simp] theorem Part.setLinks_vib (p : Part) (v : PerMotor Link) : (p.setLinks v).vib = p.vib := rfl
@[simp] theorem Part.setLinks_trip (p : Part) (v : PerMotor Link) : (p.setLinks v).trip = p.trip := rfl
@[simp] theorem Part.setLinks_cap (p : Part) (v : PerMotor Link) : (p.setLinks v).cap = p.cap := rfl

/-! ### `Part.setSeq` -/

@[simp] theorem Part.setSeq_phase (p : Part) (v : Sequencer) : (p.setSeq v).phase = p.phase := rfl
@[simp] theorem Part.setSeq_pins (p : Part) (v : Sequencer) : (p.setSeq v).pins = p.pins := rfl
@[simp] theorem Part.setSeq_exch (p : Part) (v : Sequencer) : (p.setSeq v).exch = p.exch := rfl
@[simp] theorem Part.setSeq_attn (p : Part) (v : Sequencer) : (p.setSeq v).attn = p.attn := rfl
@[simp] theorem Part.setSeq_orders (p : Part) (v : Sequencer) : (p.setSeq v).orders = p.orders := rfl
@[simp] theorem Part.setSeq_acq (p : Part) (v : Sequencer) : (p.setSeq v).acq = p.acq := rfl
@[simp] theorem Part.setSeq_ctl (p : Part) (v : Sequencer) : (p.setSeq v).ctl = p.ctl := rfl
@[simp] theorem Part.setSeq_links (p : Part) (v : Sequencer) : (p.setSeq v).links = p.links := rfl
@[simp] theorem Part.setSeq_seq (p : Part) (v : Sequencer) : (p.setSeq v).seq = v := rfl
@[simp] theorem Part.setSeq_allot (p : Part) (v : Sequencer) : (p.setSeq v).allot = p.allot := rfl
@[simp] theorem Part.setSeq_vib (p : Part) (v : Sequencer) : (p.setSeq v).vib = p.vib := rfl
@[simp] theorem Part.setSeq_trip (p : Part) (v : Sequencer) : (p.setSeq v).trip = p.trip := rfl
@[simp] theorem Part.setSeq_cap (p : Part) (v : Sequencer) : (p.setSeq v).cap = p.cap := rfl

/-! ### `Part.setAllot` -/

@[simp] theorem Part.setAllot_phase (p : Part) (v : Allotment) : (p.setAllot v).phase = p.phase := rfl
@[simp] theorem Part.setAllot_pins (p : Part) (v : Allotment) : (p.setAllot v).pins = p.pins := rfl
@[simp] theorem Part.setAllot_exch (p : Part) (v : Allotment) : (p.setAllot v).exch = p.exch := rfl
@[simp] theorem Part.setAllot_attn (p : Part) (v : Allotment) : (p.setAllot v).attn = p.attn := rfl
@[simp] theorem Part.setAllot_orders (p : Part) (v : Allotment) : (p.setAllot v).orders = p.orders := rfl
@[simp] theorem Part.setAllot_acq (p : Part) (v : Allotment) : (p.setAllot v).acq = p.acq := rfl
@[simp] theorem Part.setAllot_ctl (p : Part) (v : Allotment) : (p.setAllot v).ctl = p.ctl := rfl
@[simp] theorem Part.setAllot_links (p : Part) (v : Allotment) : (p.setAllot v).links = p.links := rfl
@[simp] theorem Part.setAllot_seq (p : Part) (v : Allotment) : (p.setAllot v).seq = p.seq := rfl
@[simp] theorem Part.setAllot_allot (p : Part) (v : Allotment) : (p.setAllot v).allot = v := rfl
@[simp] theorem Part.setAllot_vib (p : Part) (v : Allotment) : (p.setAllot v).vib = p.vib := rfl
@[simp] theorem Part.setAllot_trip (p : Part) (v : Allotment) : (p.setAllot v).trip = p.trip := rfl
@[simp] theorem Part.setAllot_cap (p : Part) (v : Allotment) : (p.setAllot v).cap = p.cap := rfl

/-! ### `Part.setVib` -/

@[simp] theorem Part.setVib_phase (p : Part) (v : Vibration) : (p.setVib v).phase = p.phase := rfl
@[simp] theorem Part.setVib_pins (p : Part) (v : Vibration) : (p.setVib v).pins = p.pins := rfl
@[simp] theorem Part.setVib_exch (p : Part) (v : Vibration) : (p.setVib v).exch = p.exch := rfl
@[simp] theorem Part.setVib_attn (p : Part) (v : Vibration) : (p.setVib v).attn = p.attn := rfl
@[simp] theorem Part.setVib_orders (p : Part) (v : Vibration) : (p.setVib v).orders = p.orders := rfl
@[simp] theorem Part.setVib_acq (p : Part) (v : Vibration) : (p.setVib v).acq = p.acq := rfl
@[simp] theorem Part.setVib_ctl (p : Part) (v : Vibration) : (p.setVib v).ctl = p.ctl := rfl
@[simp] theorem Part.setVib_links (p : Part) (v : Vibration) : (p.setVib v).links = p.links := rfl
@[simp] theorem Part.setVib_seq (p : Part) (v : Vibration) : (p.setVib v).seq = p.seq := rfl
@[simp] theorem Part.setVib_allot (p : Part) (v : Vibration) : (p.setVib v).allot = p.allot := rfl
@[simp] theorem Part.setVib_vib (p : Part) (v : Vibration) : (p.setVib v).vib = v := rfl
@[simp] theorem Part.setVib_trip (p : Part) (v : Vibration) : (p.setVib v).trip = p.trip := rfl
@[simp] theorem Part.setVib_cap (p : Part) (v : Vibration) : (p.setVib v).cap = p.cap := rfl

/-! ### `Part.setTrip` -/

@[simp] theorem Part.setTrip_phase (p : Part) (v : TripUnit) : (p.setTrip v).phase = p.phase := rfl
@[simp] theorem Part.setTrip_pins (p : Part) (v : TripUnit) : (p.setTrip v).pins = p.pins := rfl
@[simp] theorem Part.setTrip_exch (p : Part) (v : TripUnit) : (p.setTrip v).exch = p.exch := rfl
@[simp] theorem Part.setTrip_attn (p : Part) (v : TripUnit) : (p.setTrip v).attn = p.attn := rfl
@[simp] theorem Part.setTrip_orders (p : Part) (v : TripUnit) : (p.setTrip v).orders = p.orders := rfl
@[simp] theorem Part.setTrip_acq (p : Part) (v : TripUnit) : (p.setTrip v).acq = p.acq := rfl
@[simp] theorem Part.setTrip_ctl (p : Part) (v : TripUnit) : (p.setTrip v).ctl = p.ctl := rfl
@[simp] theorem Part.setTrip_links (p : Part) (v : TripUnit) : (p.setTrip v).links = p.links := rfl
@[simp] theorem Part.setTrip_seq (p : Part) (v : TripUnit) : (p.setTrip v).seq = p.seq := rfl
@[simp] theorem Part.setTrip_allot (p : Part) (v : TripUnit) : (p.setTrip v).allot = p.allot := rfl
@[simp] theorem Part.setTrip_vib (p : Part) (v : TripUnit) : (p.setTrip v).vib = p.vib := rfl
@[simp] theorem Part.setTrip_trip (p : Part) (v : TripUnit) : (p.setTrip v).trip = v := rfl
@[simp] theorem Part.setTrip_cap (p : Part) (v : TripUnit) : (p.setTrip v).cap = p.cap := rfl

/-! ### `Part.setCap` -/

@[simp] theorem Part.setCap_phase (p : Part) (v : PerEngine Engine) : (p.setCap v).phase = p.phase := rfl
@[simp] theorem Part.setCap_pins (p : Part) (v : PerEngine Engine) : (p.setCap v).pins = p.pins := rfl
@[simp] theorem Part.setCap_exch (p : Part) (v : PerEngine Engine) : (p.setCap v).exch = p.exch := rfl
@[simp] theorem Part.setCap_attn (p : Part) (v : PerEngine Engine) : (p.setCap v).attn = p.attn := rfl
@[simp] theorem Part.setCap_orders (p : Part) (v : PerEngine Engine) : (p.setCap v).orders = p.orders := rfl
@[simp] theorem Part.setCap_acq (p : Part) (v : PerEngine Engine) : (p.setCap v).acq = p.acq := rfl
@[simp] theorem Part.setCap_ctl (p : Part) (v : PerEngine Engine) : (p.setCap v).ctl = p.ctl := rfl
@[simp] theorem Part.setCap_links (p : Part) (v : PerEngine Engine) : (p.setCap v).links = p.links := rfl
@[simp] theorem Part.setCap_seq (p : Part) (v : PerEngine Engine) : (p.setCap v).seq = p.seq := rfl
@[simp] theorem Part.setCap_allot (p : Part) (v : PerEngine Engine) : (p.setCap v).allot = p.allot := rfl
@[simp] theorem Part.setCap_vib (p : Part) (v : PerEngine Engine) : (p.setCap v).vib = p.vib := rfl
@[simp] theorem Part.setCap_trip (p : Part) (v : PerEngine Engine) : (p.setCap v).trip = p.trip := rfl
@[simp] theorem Part.setCap_cap (p : Part) (v : PerEngine Engine) : (p.setCap v).cap = v := rfl

/-! ### `Part.setMem` -/

@[simp] theorem Part.setMem_phase (p : Part) (v : Memory) : (p.setMem v).phase = p.phase := rfl
@[simp] theorem Part.setMem_pins (p : Part) (v : Memory) : (p.setMem v).pins = p.pins := rfl
@[simp] theorem Part.setMem_attn (p : Part) (v : Memory) : (p.setMem v).attn = p.attn := rfl
@[simp] theorem Part.setMem_orders (p : Part) (v : Memory) : (p.setMem v).orders = p.orders := rfl
@[simp] theorem Part.setMem_acq (p : Part) (v : Memory) : (p.setMem v).acq = p.acq := rfl
@[simp] theorem Part.setMem_ctl (p : Part) (v : Memory) : (p.setMem v).ctl = p.ctl := rfl
@[simp] theorem Part.setMem_links (p : Part) (v : Memory) : (p.setMem v).links = p.links := rfl
@[simp] theorem Part.setMem_seq (p : Part) (v : Memory) : (p.setMem v).seq = p.seq := rfl
@[simp] theorem Part.setMem_allot (p : Part) (v : Memory) : (p.setMem v).allot = p.allot := rfl
@[simp] theorem Part.setMem_vib (p : Part) (v : Memory) : (p.setMem v).vib = p.vib := rfl
@[simp] theorem Part.setMem_trip (p : Part) (v : Memory) : (p.setMem v).trip = p.trip := rfl
@[simp] theorem Part.setMem_cap (p : Part) (v : Memory) : (p.setMem v).cap = p.cap := rfl
@[simp] theorem Part.setMem_mem (p : Part) (v : Memory) : (p.setMem v).exch.mem = v := rfl
@[simp] theorem Part.setMem_guardCount (p : Part) (v : Memory) :
    (p.setMem v).exch.guardCount = p.exch.guardCount := rfl
@[simp] theorem Part.setMem_guardedOffset (p : Part) (v : Memory) :
    (p.setMem v).exch.guardedOffset = p.exch.guardedOffset := rfl

/-! ### `Part.setLink`, `Part.setChannel`, `Part.setGroup` -/

@[simp] theorem Part.setLink_phase (p : Part) (m : Motor) (v : Link) : (p.setLink m v).phase = p.phase := rfl
@[simp] theorem Part.setLink_pins (p : Part) (m : Motor) (v : Link) : (p.setLink m v).pins = p.pins := rfl
@[simp] theorem Part.setLink_exch (p : Part) (m : Motor) (v : Link) : (p.setLink m v).exch = p.exch := rfl
@[simp] theorem Part.setLink_attn (p : Part) (m : Motor) (v : Link) : (p.setLink m v).attn = p.attn := rfl
@[simp] theorem Part.setLink_orders (p : Part) (m : Motor) (v : Link) : (p.setLink m v).orders = p.orders := rfl
@[simp] theorem Part.setLink_acq (p : Part) (m : Motor) (v : Link) : (p.setLink m v).acq = p.acq := rfl
@[simp] theorem Part.setLink_ctl (p : Part) (m : Motor) (v : Link) : (p.setLink m v).ctl = p.ctl := rfl
@[simp] theorem Part.setLink_seq (p : Part) (m : Motor) (v : Link) : (p.setLink m v).seq = p.seq := rfl
@[simp] theorem Part.setLink_allot (p : Part) (m : Motor) (v : Link) : (p.setLink m v).allot = p.allot := rfl
@[simp] theorem Part.setLink_vib (p : Part) (m : Motor) (v : Link) : (p.setLink m v).vib = p.vib := rfl
@[simp] theorem Part.setLink_trip (p : Part) (m : Motor) (v : Link) : (p.setLink m v).trip = p.trip := rfl
@[simp] theorem Part.setLink_cap (p : Part) (m : Motor) (v : Link) : (p.setLink m v).cap = p.cap := rfl
@[simp] theorem Part.setLink_links (p : Part) (m : Motor) (v : Link) :
    (p.setLink m v).links = p.links.set m v := rfl
@[simp] theorem Part.setChannel_phase (p : Part) (c : Accel) (v : Channel) :
    (p.setChannel c v).phase = p.phase := rfl
@[simp] theorem Part.setChannel_pins (p : Part) (c : Accel) (v : Channel) :
    (p.setChannel c v).pins = p.pins := rfl
@[simp] theorem Part.setChannel_exch (p : Part) (c : Accel) (v : Channel) :
    (p.setChannel c v).exch = p.exch := rfl
@[simp] theorem Part.setChannel_attn (p : Part) (c : Accel) (v : Channel) :
    (p.setChannel c v).attn = p.attn := rfl
@[simp] theorem Part.setChannel_orders (p : Part) (c : Accel) (v : Channel) :
    (p.setChannel c v).orders = p.orders := rfl
@[simp] theorem Part.setChannel_acq (p : Part) (c : Accel) (v : Channel) :
    (p.setChannel c v).acq = p.acq := rfl
@[simp] theorem Part.setChannel_ctl (p : Part) (c : Accel) (v : Channel) :
    (p.setChannel c v).ctl = p.ctl := rfl
@[simp] theorem Part.setChannel_links (p : Part) (c : Accel) (v : Channel) :
    (p.setChannel c v).links = p.links := rfl
@[simp] theorem Part.setChannel_seq (p : Part) (c : Accel) (v : Channel) :
    (p.setChannel c v).seq = p.seq := rfl
@[simp] theorem Part.setChannel_allot (p : Part) (c : Accel) (v : Channel) :
    (p.setChannel c v).allot = p.allot := rfl
@[simp] theorem Part.setChannel_trip (p : Part) (c : Accel) (v : Channel) :
    (p.setChannel c v).trip = p.trip := rfl
@[simp] theorem Part.setChannel_cap (p : Part) (c : Accel) (v : Channel) :
    (p.setChannel c v).cap = p.cap := rfl
@[simp] theorem Part.setGroup_phase (p : Part) (c : VibGroup) (v : GroupWatch) :
    (p.setGroup c v).phase = p.phase := rfl
@[simp] theorem Part.setGroup_pins (p : Part) (c : VibGroup) (v : GroupWatch) :
    (p.setGroup c v).pins = p.pins := rfl
@[simp] theorem Part.setGroup_exch (p : Part) (c : VibGroup) (v : GroupWatch) :
    (p.setGroup c v).exch = p.exch := rfl
@[simp] theorem Part.setGroup_attn (p : Part) (c : VibGroup) (v : GroupWatch) :
    (p.setGroup c v).attn = p.attn := rfl
@[simp] theorem Part.setGroup_orders (p : Part) (c : VibGroup) (v : GroupWatch) :
    (p.setGroup c v).orders = p.orders := rfl
@[simp] theorem Part.setGroup_acq (p : Part) (c : VibGroup) (v : GroupWatch) :
    (p.setGroup c v).acq = p.acq := rfl
@[simp] theorem Part.setGroup_ctl (p : Part) (c : VibGroup) (v : GroupWatch) :
    (p.setGroup c v).ctl = p.ctl := rfl
@[simp] theorem Part.setGroup_links (p : Part) (c : VibGroup) (v : GroupWatch) :
    (p.setGroup c v).links = p.links := rfl
@[simp] theorem Part.setGroup_seq (p : Part) (c : VibGroup) (v : GroupWatch) :
    (p.setGroup c v).seq = p.seq := rfl
@[simp] theorem Part.setGroup_allot (p : Part) (c : VibGroup) (v : GroupWatch) :
    (p.setGroup c v).allot = p.allot := rfl
@[simp] theorem Part.setGroup_trip (p : Part) (c : VibGroup) (v : GroupWatch) :
    (p.setGroup c v).trip = p.trip := rfl
@[simp] theorem Part.setGroup_cap (p : Part) (c : VibGroup) (v : GroupWatch) :
    (p.setGroup c v).cap = p.cap := rfl

/-! ### `raiseSource` -/

@[simp] theorem raiseSource_phase (x : Source) (p : Part) : (raiseSource x p).phase = p.phase := rfl
@[simp] theorem raiseSource_pins (x : Source) (p : Part) : (raiseSource x p).pins = p.pins := rfl
@[simp] theorem raiseSource_exch (x : Source) (p : Part) : (raiseSource x p).exch = p.exch := rfl
@[simp] theorem raiseSource_orders (x : Source) (p : Part) : (raiseSource x p).orders = p.orders := rfl
@[simp] theorem raiseSource_acq (x : Source) (p : Part) : (raiseSource x p).acq = p.acq := rfl
@[simp] theorem raiseSource_ctl (x : Source) (p : Part) : (raiseSource x p).ctl = p.ctl := rfl
@[simp] theorem raiseSource_links (x : Source) (p : Part) : (raiseSource x p).links = p.links := rfl
@[simp] theorem raiseSource_seq (x : Source) (p : Part) : (raiseSource x p).seq = p.seq := rfl
@[simp] theorem raiseSource_allot (x : Source) (p : Part) : (raiseSource x p).allot = p.allot := rfl
@[simp] theorem raiseSource_vib (x : Source) (p : Part) : (raiseSource x p).vib = p.vib := rfl
@[simp] theorem raiseSource_trip (x : Source) (p : Part) : (raiseSource x p).trip = p.trip := rfl
@[simp] theorem raiseSource_cap (x : Source) (p : Part) : (raiseSource x p).cap = p.cap := rfl
@[simp] theorem raiseSource_routing (x : Source) (p : Part) :
    (raiseSource x p).attn.routing = p.attn.routing := rfl

/-! ### `finishCell`, `setTaken` -/

@[simp] theorem finishCell_phase (n : CellId) (c : ResultCode) (v : List Word) (p : Part) :
    (finishCell n c v p).phase = p.phase := rfl
@[simp] theorem finishCell_pins (n : CellId) (c : ResultCode) (v : List Word) (p : Part) :
    (finishCell n c v p).pins = p.pins := rfl
@[simp] theorem finishCell_orders (n : CellId) (c : ResultCode) (v : List Word) (p : Part) :
    (finishCell n c v p).orders = p.orders := rfl
@[simp] theorem finishCell_acq (n : CellId) (c : ResultCode) (v : List Word) (p : Part) :
    (finishCell n c v p).acq = p.acq := rfl
@[simp] theorem finishCell_ctl (n : CellId) (c : ResultCode) (v : List Word) (p : Part) :
    (finishCell n c v p).ctl = p.ctl := rfl
@[simp] theorem finishCell_links (n : CellId) (c : ResultCode) (v : List Word) (p : Part) :
    (finishCell n c v p).links = p.links := rfl
@[simp] theorem finishCell_seq (n : CellId) (c : ResultCode) (v : List Word) (p : Part) :
    (finishCell n c v p).seq = p.seq := rfl
@[simp] theorem finishCell_allot (n : CellId) (c : ResultCode) (v : List Word) (p : Part) :
    (finishCell n c v p).allot = p.allot := rfl
@[simp] theorem finishCell_vib (n : CellId) (c : ResultCode) (v : List Word) (p : Part) :
    (finishCell n c v p).vib = p.vib := rfl
@[simp] theorem finishCell_trip (n : CellId) (c : ResultCode) (v : List Word) (p : Part) :
    (finishCell n c v p).trip = p.trip := rfl
@[simp] theorem finishCell_cap (n : CellId) (c : ResultCode) (v : List Word) (p : Part) :
    (finishCell n c v p).cap = p.cap := rfl
@[simp] theorem finishCell_mem (n : CellId) (c : ResultCode) (v : List Word) (p : Part) :
    (finishCell n c v p).exch.mem = finishedMemory p.exch.mem n p.acq.frameCount c v := rfl
@[simp] theorem finishCell_guardCount (n : CellId) (c : ResultCode) (v : List Word) (p : Part) :
    (finishCell n c v p).exch.guardCount = p.exch.guardCount := rfl
@[simp] theorem finishCell_guardedOffset (n : CellId) (c : ResultCode) (v : List Word) (p : Part) :
    (finishCell n c v p).exch.guardedOffset = p.exch.guardedOffset := rfl
@[simp] theorem finishCell_routing (n : CellId) (c : ResultCode) (v : List Word) (p : Part) :
    (finishCell n c v p).attn.routing = p.attn.routing := rfl
@[simp] theorem setTaken_phase (n : CellId) (p : Part) : (setTaken n p).phase = p.phase := rfl
@[simp] theorem setTaken_pins (n : CellId) (p : Part) : (setTaken n p).pins = p.pins := rfl
@[simp] theorem setTaken_attn (n : CellId) (p : Part) : (setTaken n p).attn = p.attn := rfl
@[simp] theorem setTaken_orders (n : CellId) (p : Part) : (setTaken n p).orders = p.orders := rfl
@[simp] theorem setTaken_acq (n : CellId) (p : Part) : (setTaken n p).acq = p.acq := rfl
@[simp] theorem setTaken_ctl (n : CellId) (p : Part) : (setTaken n p).ctl = p.ctl := rfl
@[simp] theorem setTaken_links (n : CellId) (p : Part) : (setTaken n p).links = p.links := rfl
@[simp] theorem setTaken_seq (n : CellId) (p : Part) : (setTaken n p).seq = p.seq := rfl
@[simp] theorem setTaken_allot (n : CellId) (p : Part) : (setTaken n p).allot = p.allot := rfl
@[simp] theorem setTaken_vib (n : CellId) (p : Part) : (setTaken n p).vib = p.vib := rfl
@[simp] theorem setTaken_trip (n : CellId) (p : Part) : (setTaken n p).trip = p.trip := rfl
@[simp] theorem setTaken_cap (n : CellId) (p : Part) : (setTaken n p).cap = p.cap := rfl
@[simp] theorem setTaken_mem (n : CellId) (p : Part) :
    (setTaken n p).exch.mem = writeWord p.exch.mem (cellOffset n) cellTaken := rfl

/-! ### `takeCell` -/

@[simp] theorem takeCell_phase (n : CellId) (p : Part) : (takeCell n p).phase = p.phase := rfl
@[simp] theorem takeCell_pins (n : CellId) (p : Part) : (takeCell n p).pins = p.pins := rfl
@[simp] theorem takeCell_attn (n : CellId) (p : Part) : (takeCell n p).attn = p.attn := rfl
@[simp] theorem takeCell_acq (n : CellId) (p : Part) : (takeCell n p).acq = p.acq := rfl
@[simp] theorem takeCell_ctl (n : CellId) (p : Part) : (takeCell n p).ctl = p.ctl := rfl
@[simp] theorem takeCell_links (n : CellId) (p : Part) : (takeCell n p).links = p.links := rfl
@[simp] theorem takeCell_seq (n : CellId) (p : Part) : (takeCell n p).seq = p.seq := rfl
@[simp] theorem takeCell_allot (n : CellId) (p : Part) : (takeCell n p).allot = p.allot := rfl
@[simp] theorem takeCell_vib (n : CellId) (p : Part) : (takeCell n p).vib = p.vib := rfl
@[simp] theorem takeCell_trip (n : CellId) (p : Part) : (takeCell n p).trip = p.trip := rfl
@[simp] theorem takeCell_cap (n : CellId) (p : Part) : (takeCell n p).cap = p.cap := rfl
@[simp] theorem takeCell_orders (n : CellId) (p : Part) :
    (takeCell n p).orders = { p.orders with taken := p.orders.taken + 1#32 } := rfl
@[simp] theorem takeCell_mem (n : CellId) (p : Part) :
    (takeCell n p).exch.mem =
      writeWords p.exch.mem (cellOffset n + 0x06) (wordsOf32 p.acq.frameCount) := rfl

end Sys2Proof.Machine

namespace Sys2Proof

/-! ### One value per motor, engine and group -/

@[simp] theorem PerMotor.get_set_same {α : Type} (x : PerMotor α) (m : Motor) (v : α) :
    (x.set m v).get m = v := by cases m <;> rfl

@[simp] theorem PerMotor.get_set_other {α : Type} (x : PerMotor α) (m : Motor) (v : α) :
    (x.set m v).get m.other = x.get m.other := by cases m <;> rfl

@[simp] theorem PerMotor.get_map {α β : Type} (x : PerMotor α) (f : α → β) (m : Motor) :
    (x.map f).get m = f (x.get m) := by cases m <;> rfl

@[simp] theorem PerMotor.get_both {α : Type} (v : α) (m : Motor) : (PerMotor.both v).get m = v := by
  cases m <;> rfl

@[simp] theorem PerEngine.get_set_same {α : Type} (x : PerEngine α) (e : EngineId) (v : α) :
    (x.set e v).get e = v := by cases e <;> rfl

@[simp] theorem PerEngine.get_set_other {α : Type} (x : PerEngine α) (e : EngineId) (v : α) :
    (x.set e v).get e.other = x.get e.other := by cases e <;> rfl

@[simp] theorem PerEngine.get_map {α β : Type} (x : PerEngine α) (f : α → β) (e : EngineId) :
    (x.map f).get e = f (x.get e) := by cases e <;> rfl

@[simp] theorem PerGroup.get_set_same {α : Type} (x : PerGroup α) (g : VibGroup) (v : α) :
    (x.set g v).get g = v := by cases g <;> rfl

@[simp] theorem PerGroup.get_ofFun {α : Type} (f : VibGroup → α) (g : VibGroup) :
    (PerGroup.ofFun f).get g = f g := by cases g <;> rfl

@[simp] theorem PerAccel.get_set_same {α : Type} (x : PerAccel α) (c : Accel) (v : α) :
    (x.set c v).get c = v := by cases c <;> rfl

@[simp] theorem PerAccel.get_ofFun {α : Type} (f : Accel → α) (c : Accel) :
    (PerAccel.ofFun f).get c = f c := by cases c <;> rfl

end Sys2Proof
end

