-- ==== Sys2Proof/Laws/Agenda.lean ====
section
/-! SUPPORT. The due work: it always counts down, so all of it can be done; what the ways of taking it up
leave; and how a row that stands at the front comes about. -/

namespace Sys2Proof.Machine

/-! ## Weights -/

@[simp] theorem agendaWeight_nil : agendaWeight [] = 0 := rfl

@[simp] theorem agendaWeight_cons (w : Work) (a : List Work) :
    agendaWeight (w :: a) = w.weight + agendaWeight a := by simp [agendaWeight]

@[simp] theorem agendaWeight_append (a b : List Work) :
    agendaWeight (a ++ b) = agendaWeight a + agendaWeight b := by simp [agendaWeight]

/-- Every piece of work counts. -/
theorem Work.weight_pos (w : Work) : 0 < w.weight := by
  unfold Work.weight
  split <;> omega

/-- A list whose elements each count at most `k`. -/
theorem agendaWeight_le (k : Nat) (a : List Work) (h : ∀ w ∈ a, w.weight ≤ k) :
    agendaWeight a ≤ k * a.length := by
  induction a with
  | nil => simp
  | cons w a ih =>
    have h1 := h w (by simp)
    have h2 := ih (fun x hx => h x (by simp [hx]))
    simp only [agendaWeight_cons, List.length_cons, Nat.mul_add, Nat.mul_one]
    omega

/-- A part of a list of rows that count 1 each counts at most as many as the list is long. -/
theorem agendaWeight_filter_map {α : Type} (xs : List α) (f : α → Bool) (g : α → Work)
    (h : ∀ x, (g x).weight = 1) : agendaWeight ((xs.filter f).map g) ≤ xs.length := by
  induction xs with
  | nil => simp
  | cons x xs ih =>
    simp only [List.filter_cons]
    split
    · simp only [List.map_cons, agendaWeight_cons, h, List.length_cons]; omega
    · simp only [List.length_cons]; omega

/-- A row that counts 1, due or not. -/
theorem agendaWeight_ite (c : Prop) [Decidable c] (w : Work) (hw : w.weight = 1) :
    agendaWeight (if c then [w] else []) ≤ 1 := by
  split <;> simp [hw]

theorem replyWindowClose_weight (m : Motor) (p : Part) :
    agendaWeight (replyWindowClose m p).due ≤ 1 := by
  unfold replyWindowClose
  dsimp only
  split
  · simp [Effect.only]
  · dsimp only
    split
    · exact agendaWeight_ite _ _ rfl
    · exact agendaWeight_ite _ _ rfl
    · exact Nat.zero_le _
    · exact Nat.zero_le _

theorem captureBlockWrite_weight (e : EngineId) (p : Part) :
    agendaWeight (captureBlockWrite e p).due ≤ 1 := by
  unfold captureBlockWrite
  exact agendaWeight_ite _ _ rfl

theorem acquisitionFrame_weight (p : Part) : agendaWeight (acquisitionFrame p).due ≤ 4 := by
  unfold acquisitionFrame
  dsimp only
  simp only [agendaWeight_append]
  exact Nat.add_le_add (Nat.add_le_add (Nat.add_le_add (agendaWeight_ite _ _ rfl)
    (agendaWeight_ite _ _ rfl)) (agendaWeight_ite _ _ rfl)) (agendaWeight_ite _ _ rfl)

theorem vibrationFrame_weight (p : Part) : agendaWeight (vibrationFrame p).due ≤ 5 := by
  unfold vibrationFrame
  dsimp only
  rw [agendaWeight_append]
  exact Nat.add_le_add
    (agendaWeight_filter_map VibGroup.all _ Work.derateHoldExpiry (fun _ => rfl)) (le_of_eq rfl)

theorem sequencerFrame_weight (p : Part) : agendaWeight (sequencerFrame p).due ≤ 6 := by
  unfold sequencerFrame
  dsimp only
  rw [agendaWeight_append]
  exact Nat.add_le_add (agendaWeight_filter_map Motor.all _ Work.tripRampEnd (fun _ => rfl))
    (le_of_eq rfl)

theorem sequencerStart_weight (p : Part) : agendaWeight (sequencerStart p).due ≤ 3 := by
  unfold sequencerStart
  dsimp only
  rw [agendaWeight_append]
  exact Nat.add_le_add (agendaWeight_ite _ _ rfl) (le_of_eq rfl)

theorem sequencerLoop_weight (failed : Bool) (p : Part) :
    agendaWeight (sequencerLoop failed p).due ≤ 1 := by
  unfold sequencerLoop
  exact agendaWeight_ite _ _ rfl

theorem allotmentFrame_weight (p : Part) : agendaWeight (allotmentFrame p).due ≤ 1 := by
  unfold allotmentFrame
  exact agendaWeight_ite _ _ rfl

theorem tripFrame_weight (p : Part) : agendaWeight (tripFrame p).due ≤ 1 := by
  unfold tripFrame
  dsimp only
  split
  · simp [Effect.only]
  · exact agendaWeight_ite _ _ rfl

theorem scanCell_weight (n : CellId) (p : Part) : agendaWeight (scanCell n p).due ≤ 1 := by
  unfold scanCell
  split <;> simp [Effect.only, Work.weight]

theorem controlSamples_weight (m : Motor) (p : Part) : agendaWeight (controlSamples m p).due ≤ 3 := by
  unfold controlSamples
  dsimp only
  simp only [agendaWeight_append]
  exact Nat.add_le_add (Nat.add_le_add (agendaWeight_ite _ _ rfl) (agendaWeight_ite _ _ rfl))
    (le_of_eq rfl)

theorem selftestDue_weight (t : Selftest) (w : Nat) : agendaWeight (selftestDue t w) ≤ 1 := by
  unfold selftestDue
  split <;> exact agendaWeight_ite _ _ rfl

theorem vibrationScan_weight (p : Part) : agendaWeight (vibrationScan p).due ≤ 9 := by
  unfold vibrationScan
  dsimp only
  split
  · exact le_trans (selftestDue_weight _ _) (by omega)
  · rw [agendaWeight_append]
    exact Nat.add_le_add (agendaWeight_filter_map Accel.all _ Work.windowEnd (fun _ => rfl)) (le_of_eq rfl)

theorem captureScan_weight (p : Part) : agendaWeight (captureScan p).due ≤ 4 := by
  unfold captureScan
  dsimp only
  refine le_trans (agendaWeight_le 2 _ ?_) (Nat.mul_le_mul_left 2 (m := 2) ?_)
  · intro w hw
    obtain ⟨e, _, rfl⟩ := List.mem_map.1 hw
    exact le_of_eq rfl
  · rw [List.length_map]
    exact le_trans (List.length_filter_le _ _) (le_of_eq rfl)

/-- What a piece of work brings about counts less than it does. -/
theorem runWork_weight (w : Work) (p : Part) : agendaWeight (runWork w p).due + 1 ≤ w.weight := by
  cases w with
  | supervisionFrame => exact le_of_eq rfl
  | scanComplete => exact le_of_eq rfl
  | replyWindowClose m => exact Nat.add_le_add_right (replyWindowClose_weight m p) 1
  | captureBlockWrite e => exact Nat.add_le_add_right (captureBlockWrite_weight e p) 1
  | frameOf b =>
    cases b with
    | acquisition => exact Nat.add_le_add_right (acquisitionFrame_weight p) 1
    | vibration => exact Nat.add_le_add_right (vibrationFrame_weight p) 1
    | sequencer => exact Nat.add_le_add_right (sequencerFrame_weight p) 1
    | allotment => exact Nat.add_le_add_right (allotmentFrame_weight p) 1
    | trip => exact Nat.add_le_add_right (tripFrame_weight p) 1
    | orders => exact le_of_eq rfl
    | live => exact le_of_eq rfl
  | sequencerStart => exact Nat.add_le_add_right (sequencerStart_weight p) 1
  | sequencerLoop f => exact Nat.add_le_add_right (sequencerLoop_weight f p) 1
  | scanCell n => exact Nat.add_le_add_right (scanCell_weight n p) 1
  | scanTo b =>
    cases b with
    | controlA => exact Nat.add_le_add_right (controlSamples_weight .a p) 1
    | controlB => exact Nat.add_le_add_right (controlSamples_weight .b p) 1
    | vibration => exact Nat.add_le_add_right (vibrationScan_weight p) 1
    | capture => exact Nat.add_le_add_right (captureScan_weight p) 1
    | fastRing => exact le_of_eq rfl
  | currentSensorLost m => exact le_of_eq rfl
  | windowEnd c => exact le_of_eq rfl
  | captureComplete e => exact le_of_eq rfl
  | selftestSettlingEnd => exact le_of_eq rfl
  | selftestMeasuringEnd => exact le_of_eq rfl
  | selftestEnd => exact le_of_eq rfl
  | encoderValidRegained m => exact le_of_eq rfl
  | encoderLost m => exact le_of_eq rfl
  | overspeed => exact le_of_eq rfl
  | speedMismatch => exact le_of_eq rfl
  | order k n => exact le_of_eq rfl
  | linkUp m => exact le_of_eq rfl
  | linkLost m => exact le_of_eq rfl
  | recordClose => exact le_of_eq rfl
  | tripRampEnd m => exact le_of_eq rfl
  | magnetizingRampFinished => exact le_of_eq rfl
  | failedStart => exact le_of_eq rfl
  | gearOverload => exact le_of_eq rfl
  | derateHoldExpiry g => exact le_of_eq rfl
  | vibrationPublish => exact le_of_eq rfl
  | controlCompute m => exact le_of_eq rfl
  | vibrationGroups => exact le_of_eq rfl

/-! ## Running the agenda -/

/-- A property of the state that each piece of work done keeps is kept by a run of work. -/
theorem runUntil_keeps (P : State → Prop) (done : List Work → Bool)
    (h : ∀ w rest s, s.agenda = w :: rest → done s.agenda = false → P s → P (runFirst w rest s))
    (k : Nat) (s : State) (hs : P s) : P (runUntil done k s) := by
  induction k generalizing s with
  | zero => exact hs
  | succ k ih =>
    unfold runUntil
    split
    · exact hs
    · next hd =>
      split
      · exact hs
      · next w rest he => exact ih _ (h w rest s he (Bool.eq_false_iff.2 hd) hs)

/-- A property of the part that every piece of work keeps is kept by any run of work. -/
theorem runUntil_keeps_part (P : Part → Prop) (h : ∀ w p, P p → P (runWork w p).part)
    (done : List Work → Bool) (k : Nat) (s : State) (hs : P s.part) : P (runUntil done k s).part :=
  runUntil_keeps (fun s => P s.part) done (fun w _ s _ _ hp => h w s.part hp) k s hs

/-- A property of the part that every piece of work between rows keeps is kept by draining. -/
theorem drain_keeps_part (P : Part → Prop)
    (h : ∀ w p, w.isRow = false → P p → P (runWork w p).part) (s : State) (hs : P s.part) :
    P (drain s).part :=
  runUntil_keeps (fun s => P s.part) beforeRow
    (fun w _ s ha hd hp => h w s.part (by rw [ha] at hd; exact hd) hp) _ s hs

@[simp] theorem runUntil_pending (done : List Work → Bool) (k : Nat) (s : State) :
    (runUntil done k s).pending = s.pending :=
  runUntil_keeps (fun t => t.pending = s.pending) done (fun _ _ _ _ _ h => h) k s rfl

@[simp] theorem drain_pending (s : State) : (drain s).pending = s.pending := runUntil_pending _ _ _
@[simp] theorem reach_pending (w : Work) (s : State) : (reach w s).pending = s.pending :=
  runUntil_pending _ _ _
@[simp] theorem settle_pending (s : State) : (settle s).pending = s.pending := runUntil_pending _ _ _
@[simp] theorem finishForReset_pending (s : State) : (finishForReset s).pending = s.pending :=
  runUntil_pending _ _ _
@[simp] theorem finishEvent_pending (s : State) : (finishEvent s).pending = s.pending :=
  runUntil_pending _ _ _

@[simp] theorem finishExpiry_pending (s : State) : (finishExpiry s).pending = s.pending :=
  runUntil_pending _ _ _

/-- With as much fuel as the agenda weighs, a run stops where it is told to or with nothing due. -/
theorem runUntil_stops (done : List Work → Bool) (hnil : done [] = true) (k : Nat) (s : State)
    (hk : agendaWeight s.agenda ≤ k) : done (runUntil done k s).agenda = true := by
  induction k generalizing s with
  | zero =>
    have : s.agenda = [] := by
      cases ha : s.agenda with
      | nil => rfl
      | cons w rest =>
        rw [ha, agendaWeight_cons] at hk
        have := w.weight_pos
        omega
    rw [runUntil, this, hnil]
  | succ k ih =>
    unfold runUntil
    split
    · next h => exact h
    · split
      · next h => rw [h, hnil]
      · next w rest he =>
        refine ih _ ?_
        have h1 := runWork_weight w s.part
        rw [he, agendaWeight_cons] at hk
        show agendaWeight ((runWork w s.part).due ++ rest) ≤ k
        rw [agendaWeight_append]
        omega

/-- A run that is where it is told to stop does nothing. -/
theorem runUntil_of_done (done : List Work → Bool) (k : Nat) (s : State) (h : done s.agenda = true) :
    runUntil done k s = s := by
  cases k with
  | zero => rfl
  | succ k => rw [runUntil, if_pos h]

/-- Settling leaves nothing due. -/
theorem settle_agenda (s : State) : (settle s).agenda = [] := by
  have := runUntil_stops List.isEmpty rfl _ s le_rfl
  exact List.isEmpty_iff.1 this

theorem settle_of_nil (s : State) (h : s.agenda = []) : settle s = s :=
  runUntil_of_done _ _ s (by rw [h]; rfl)

theorem finishEvent_of_between (s : State) (h : betweenEvents s.agenda = true) : finishEvent s = s :=
  runUntil_of_done _ _ s h

/-- Where nothing is under way but the close of a record, a part reset finds the part as it stands. -/
theorem finishForReset_of_between (s : State)
    (h : betweenEvents (s.agenda.filter (fun w => w != .recordClose)) = true) :
    finishForReset s = { s with agenda := s.agenda.filter (fun w => w != .recordClose) } :=
  finishEvent_of_between _ h

/-- After finishing an event, none that has begun is still to be completed. -/
theorem betweenEvents_finishEvent (s : State) : betweenEvents (finishEvent s).agenda = true :=
  runUntil_stops betweenEvents rfl _ s le_rfl

theorem finishExpiry_of_over (s : State) (h : expiryOver s.agenda = true) : finishExpiry s = s :=
  runUntil_of_done _ _ s h

/-- After finishing an expiry, no window close and no frame event of it is due, and no event is under way. -/
theorem expiryOver_finishExpiry (s : State) : expiryOver (finishExpiry s).agenda = true :=
  runUntil_stops expiryOver rfl _ s le_rfl

theorem drain_of_beforeRow (s : State) (h : beforeRow s.agenda = true) : drain s = s :=
  runUntil_of_done _ _ s h

/-- After draining, the agenda stands before a row or is empty. -/
theorem beforeRow_drain (s : State) : beforeRow (drain s).agenda = true :=
  runUntil_stops beforeRow rfl _ s le_rfl

theorem reach_of_front (w : Work) (s : State) (h : rowAtFront w s.agenda = true) : reach w s = s :=
  runUntil_of_done _ _ s h

/-- After reaching a row, it is among those at the front, or nothing is due. -/
theorem rowAtFront_reach (w : Work) (s : State) : rowAtFront w (reach w s).agenda = true :=
  runUntil_stops (rowAtFront w) rfl _ s le_rfl

theorem rowAtFront_head (w : Work) (rest : List Work) (h : w.isRow = true) :
    rowAtFront w (w :: rest) = true := by
  simp [rowAtFront, frontRows, h]

/-- A row at the front comes about; then the stretches before the next row are done. -/
theorem occurWith_head (w : Work) (f : Part → Effect) (s : State) (rest : List Work)
    (hw : w.isRow = true) (ha : s.agenda = w :: rest) :
    occurWith w f s =
      .next (drain { s with agenda := (f s.part).due ++ rest, part := (f s.part).part }) := by
  have hr : reach w s = s := reach_of_front w s (by rw [ha]; exact rowAtFront_head w rest hw)
  simp [occurWith, hr, ha]

/-- A row at the front that brings nothing about, with a row or nothing behind it. -/
theorem occurWith_only (w : Work) (f : Part → Part) (s : State) (rest : List Work)
    (hw : w.isRow = true) (ha : s.agenda = w :: rest) (hr : beforeRow rest = true) :
    occurWith w (fun p => .only (f p)) s = .next { s with agenda := rest, part := f s.part } := by
  rw [occurWith_head w _ s rest hw ha]
  exact congrArg _ (drain_of_beforeRow _ hr)

/-- A row that is not due does not come about. -/
theorem occurWith_of_nil (w : Work) (f : Part → Effect) (s : State) (ha : s.agenda = []) :
    occurWith w f s = .next s := by
  have hr : reach w s = s := reach_of_front w s (by rw [ha]; rfl)
  simp [occurWith, hr, ha]

end Sys2Proof.Machine
end

