-- ==== Sys2Proof/Laws/Frames.lean ====
section
/-! SUPPORT. What the shared operations leave of the part: the order entries, the trip orders, the steps of a
trip event and the trip event as a whole. -/

namespace Sys2Proof.Machine

/-! ## In-flight entries finished -/

@[simp] theorem finishRun_phase (c : ResultCode) (p : Part) :
    (finishRun c p).phase = p.phase := by
  unfold finishRun; split <;> simp
@[simp] theorem finishRun_pins (c : ResultCode) (p : Part) :
    (finishRun c p).pins = p.pins := by
  unfold finishRun; split <;> simp
@[simp] theorem finishRun_acq (c : ResultCode) (p : Part) :
    (finishRun c p).acq = p.acq := by
  unfold finishRun; split <;> simp
@[simp] theorem finishRun_ctl (c : ResultCode) (p : Part) :
    (finishRun c p).ctl = p.ctl := by
  unfold finishRun; split <;> simp
@[simp] theorem finishRun_links (c : ResultCode) (p : Part) :
    (finishRun c p).links = p.links := by
  unfold finishRun; split <;> simp
@[simp] theorem finishRun_seq (c : ResultCode) (p : Part) :
    (finishRun c p).seq = p.seq := by
  unfold finishRun; split <;> simp
@[simp] theorem finishRun_allot (c : ResultCode) (p : Part) :
    (finishRun c p).allot = p.allot := by
  unfold finishRun; split <;> simp
@[simp] theorem finishRun_vib (c : ResultCode) (p : Part) :
    (finishRun c p).vib = p.vib := by
  unfold finishRun; split <;> simp
@[simp] theorem finishRun_trip (c : ResultCode) (p : Part) :
    (finishRun c p).trip = p.trip := by
  unfold finishRun; split <;> simp
@[simp] theorem finishRun_cap (c : ResultCode) (p : Part) :
    (finishRun c p).cap = p.cap := by
  unfold finishRun; split <;> simp
@[simp] theorem finishRun_guardCount (c : ResultCode) (p : Part) :
    (finishRun c p).exch.guardCount = p.exch.guardCount := by
  unfold finishRun; split <;> simp
@[simp] theorem finishRun_guardedOffset (c : ResultCode) (p : Part) :
    (finishRun c p).exch.guardedOffset = p.exch.guardedOffset := by
  unfold finishRun; split <;> simp
@[simp] theorem finishRun_routing (c : ResultCode) (p : Part) :
    (finishRun c p).attn.routing = p.attn.routing := by
  unfold finishRun; split <;> simp

@[simp] theorem finishStop_phase (c : ResultCode) (p : Part) :
    (finishStop c p).phase = p.phase := by
  unfold finishStop; split <;> simp
@[simp] theorem finishStop_pins (c : ResultCode) (p : Part) :
    (finishStop c p).pins = p.pins := by
  unfold finishStop; split <;> simp
@[simp] theorem finishStop_acq (c : ResultCode) (p : Part) :
    (finishStop c p).acq = p.acq := by
  unfold finishStop; split <;> simp
@[simp] theorem finishStop_ctl (c : ResultCode) (p : Part) :
    (finishStop c p).ctl = p.ctl := by
  unfold finishStop; split <;> simp
@[simp] theorem finishStop_links (c : ResultCode) (p : Part) :
    (finishStop c p).links = p.links := by
  unfold finishStop; split <;> simp
@[simp] theorem finishStop_seq (c : ResultCode) (p : Part) :
    (finishStop c p).seq = p.seq := by
  unfold finishStop; split <;> simp
@[simp] theorem finishStop_allot (c : ResultCode) (p : Part) :
    (finishStop c p).allot = p.allot := by
  unfold finishStop; split <;> simp
@[simp] theorem finishStop_vib (c : ResultCode) (p : Part) :
    (finishStop c p).vib = p.vib := by
  unfold finishStop; split <;> simp
@[simp] theorem finishStop_trip (c : ResultCode) (p : Part) :
    (finishStop c p).trip = p.trip := by
  unfold finishStop; split <;> simp
@[simp] theorem finishStop_cap (c : ResultCode) (p : Part) :
    (finishStop c p).cap = p.cap := by
  unfold finishStop; split <;> simp
@[simp] theorem finishStop_guardCount (c : ResultCode) (p : Part) :
    (finishStop c p).exch.guardCount = p.exch.guardCount := by
  unfold finishStop; split <;> simp
@[simp] theorem finishStop_guardedOffset (c : ResultCode) (p : Part) :
    (finishStop c p).exch.guardedOffset = p.exch.guardedOffset := by
  unfold finishStop; split <;> simp
@[simp] theorem finishStop_routing (c : ResultCode) (p : Part) :
    (finishStop c p).attn.routing = p.attn.routing := by
  unfold finishStop; split <;> simp

@[simp] theorem finishCapture_phase (e : EngineId) (c : ResultCode) (v : List Word) (p : Part) :
    (finishCapture e c v p).phase = p.phase := by
  unfold finishCapture; split <;> simp
@[simp] theorem finishCapture_pins (e : EngineId) (c : ResultCode) (v : List Word) (p : Part) :
    (finishCapture e c v p).pins = p.pins := by
  unfold finishCapture; split <;> simp
@[simp] theorem finishCapture_acq (e : EngineId) (c : ResultCode) (v : List Word) (p : Part) :
    (finishCapture e c v p).acq = p.acq := by
  unfold finishCapture; split <;> simp
@[simp] theorem finishCapture_ctl (e : EngineId) (c : ResultCode) (v : List Word) (p : Part) :
    (finishCapture e c v p).ctl = p.ctl := by
  unfold finishCapture; split <;> simp
@[simp] theorem finishCapture_links (e : EngineId) (c : ResultCode) (v : List Word) (p : Part) :
    (finishCapture e c v p).links = p.links := by
  unfold finishCapture; split <;> simp
@[simp] theorem finishCapture_seq (e : EngineId) (c : ResultCode) (v : List Word) (p : Part) :
    (finishCapture e c v p).seq = p.seq := by
  unfold finishCapture; split <;> simp
@[simp] theorem finishCapture_allot (e : EngineId) (c : ResultCode) (v : List Word) (p : Part) :
    (finishCapture e c v p).allot = p.allot := by
  unfold finishCapture; split <;> simp
@[simp] theorem finishCapture_vib (e : EngineId) (c : ResultCode) (v : List Word) (p : Part) :
    (finishCapture e c v p).vib = p.vib := by
  unfold finishCapture; split <;> simp
@[simp] theorem finishCapture_trip (e : EngineId) (c : ResultCode) (v : List Word) (p : Part) :
    (finishCapture e c v p).trip = p.trip := by
  unfold finishCapture; split <;> simp
@[simp] theorem finishCapture_cap (e : EngineId) (c : ResultCode) (v : List Word) (p : Part) :
    (finishCapture e c v p).cap = p.cap := by
  unfold finishCapture; split <;> simp
@[simp] theorem finishCapture_guardCount (e : EngineId) (c : ResultCode) (v : List Word) (p : Part) :
    (finishCapture e c v p).exch.guardCount = p.exch.guardCount := by
  unfold finishCapture; split <;> simp
@[simp] theorem finishCapture_guardedOffset (e : EngineId) (c : ResultCode) (v : List Word) (p : Part) :
    (finishCapture e c v p).exch.guardedOffset = p.exch.guardedOffset := by
  unfold finishCapture; split <;> simp
@[simp] theorem finishCapture_routing (e : EngineId) (c : ResultCode) (v : List Word) (p : Part) :
    (finishCapture e c v p).attn.routing = p.attn.routing := by
  unfold finishCapture; split <;> simp

@[simp] theorem finishLinkTest_phase (m : Motor) (c : ResultCode) (v : List Word) (p : Part) :
    (finishLinkTest m c v p).phase = p.phase := by
  unfold finishLinkTest; split <;> simp
@[simp] theorem finishLinkTest_pins (m : Motor) (c : ResultCode) (v : List Word) (p : Part) :
    (finishLinkTest m c v p).pins = p.pins := by
  unfold finishLinkTest; split <;> simp
@[simp] theorem finishLinkTest_acq (m : Motor) (c : ResultCode) (v : List Word) (p : Part) :
    (finishLinkTest m c v p).acq = p.acq := by
  unfold finishLinkTest; split <;> simp
@[simp] theorem finishLinkTest_ctl (m : Motor) (c : ResultCode) (v : List Word) (p : Part) :
    (finishLinkTest m c v p).ctl = p.ctl := by
  unfold finishLinkTest; split <;> simp
@[simp] theorem finishLinkTest_links (m : Motor) (c : ResultCode) (v : List Word) (p : Part) :
    (finishLinkTest m c v p).links = p.links := by
  unfold finishLinkTest; split <;> simp
@[simp] theorem finishLinkTest_seq (m : Motor) (c : ResultCode) (v : List Word) (p : Part) :
    (finishLinkTest m c v p).seq = p.seq := by
  unfold finishLinkTest; split <;> simp
@[simp] theorem finishLinkTest_allot (m : Motor) (c : ResultCode) (v : List Word) (p : Part) :
    (finishLinkTest m c v p).allot = p.allot := by
  unfold finishLinkTest; split <;> simp
@[simp] theorem finishLinkTest_vib (m : Motor) (c : ResultCode) (v : List Word) (p : Part) :
    (finishLinkTest m c v p).vib = p.vib := by
  unfold finishLinkTest; split <;> simp
@[simp] theorem finishLinkTest_trip (m : Motor) (c : ResultCode) (v : List Word) (p : Part) :
    (finishLinkTest m c v p).trip = p.trip := by
  unfold finishLinkTest; split <;> simp
@[simp] theorem finishLinkTest_cap (m : Motor) (c : ResultCode) (v : List Word) (p : Part) :
    (finishLinkTest m c v p).cap = p.cap := by
  unfold finishLinkTest; split <;> simp
@[simp] theorem finishLinkTest_guardCount (m : Motor) (c : ResultCode) (v : List Word) (p : Part) :
    (finishLinkTest m c v p).exch.guardCount = p.exch.guardCount := by
  unfold finishLinkTest; split <;> simp
@[simp] theorem finishLinkTest_guardedOffset (m : Motor) (c : ResultCode) (v : List Word) (p : Part) :
    (finishLinkTest m c v p).exch.guardedOffset = p.exch.guardedOffset := by
  unfold finishLinkTest; split <;> simp
@[simp] theorem finishLinkTest_routing (m : Motor) (c : ResultCode) (v : List Word) (p : Part) :
    (finishLinkTest m c v p).attn.routing = p.attn.routing := by
  unfold finishLinkTest; split <;> simp

@[simp] theorem finishSelftest_phase (c : ResultCode) (v : List Word) (p : Part) :
    (finishSelftest c v p).phase = p.phase := by
  unfold finishSelftest; split <;> simp
@[simp] theorem finishSelftest_pins (c : ResultCode) (v : List Word) (p : Part) :
    (finishSelftest c v p).pins = p.pins := by
  unfold finishSelftest; split <;> simp
@[simp] theorem finishSelftest_acq (c : ResultCode) (v : List Word) (p : Part) :
    (finishSelftest c v p).acq = p.acq := by
  unfold finishSelftest; split <;> simp
@[simp] theorem finishSelftest_ctl (c : ResultCode) (v : List Word) (p : Part) :
    (finishSelftest c v p).ctl = p.ctl := by
  unfold finishSelftest; split <;> simp
@[simp] theorem finishSelftest_links (c : ResultCode) (v : List Word) (p : Part) :
    (finishSelftest c v p).links = p.links := by
  unfold finishSelftest; split <;> simp
@[simp] theorem finishSelftest_seq (c : ResultCode) (v : List Word) (p : Part) :
    (finishSelftest c v p).seq = p.seq := by
  unfold finishSelftest; split <;> simp
@[simp] theorem finishSelftest_allot (c : ResultCode) (v : List Word) (p : Part) :
    (finishSelftest c v p).allot = p.allot := by
  unfold finishSelftest; split <;> simp
@[simp] theorem finishSelftest_vib (c : ResultCode) (v : List Word) (p : Part) :
    (finishSelftest c v p).vib = p.vib := by
  unfold finishSelftest; split <;> simp
@[simp] theorem finishSelftest_trip (c : ResultCode) (v : List Word) (p : Part) :
    (finishSelftest c v p).trip = p.trip := by
  unfold finishSelftest; split <;> simp
@[simp] theorem finishSelftest_cap (c : ResultCode) (v : List Word) (p : Part) :
    (finishSelftest c v p).cap = p.cap := by
  unfold finishSelftest; split <;> simp
@[simp] theorem finishSelftest_guardCount (c : ResultCode) (v : List Word) (p : Part) :
    (finishSelftest c v p).exch.guardCount = p.exch.guardCount := by
  unfold finishSelftest; split <;> simp
@[simp] theorem finishSelftest_guardedOffset (c : ResultCode) (v : List Word) (p : Part) :
    (finishSelftest c v p).exch.guardedOffset = p.exch.guardedOffset := by
  unfold finishSelftest; split <;> simp
@[simp] theorem finishSelftest_routing (c : ResultCode) (v : List Word) (p : Part) :
    (finishSelftest c v p).attn.routing = p.attn.routing := by
  unfold finishSelftest; split <;> simp

/-! ## Trip orders -/

@[simp] theorem inhibitAllOrder_phase (p : Part) :
    (inhibitAllOrder p).phase = p.phase := by
  rfl
@[simp] theorem inhibitAllOrder_pins (p : Part) :
    (inhibitAllOrder p).pins = p.pins := by
  rfl
@[simp] theorem inhibitAllOrder_attn (p : Part) :
    (inhibitAllOrder p).attn = p.attn := by
  rfl
@[simp] theorem inhibitAllOrder_orders (p : Part) :
    (inhibitAllOrder p).orders = p.orders := by
  rfl
@[simp] theorem inhibitAllOrder_acq (p : Part) :
    (inhibitAllOrder p).acq = p.acq := by
  rfl
@[simp] theorem inhibitAllOrder_ctl (p : Part) :
    (inhibitAllOrder p).ctl = p.ctl := by
  rfl
@[simp] theorem inhibitAllOrder_links (p : Part) :
    (inhibitAllOrder p).links = p.links := by
  rfl
@[simp] theorem inhibitAllOrder_allot (p : Part) :
    (inhibitAllOrder p).allot = p.allot := by
  rfl
@[simp] theorem inhibitAllOrder_vib (p : Part) :
    (inhibitAllOrder p).vib = p.vib := by
  rfl
@[simp] theorem inhibitAllOrder_trip (p : Part) :
    (inhibitAllOrder p).trip = p.trip := by
  rfl
@[simp] theorem inhibitAllOrder_cap (p : Part) :
    (inhibitAllOrder p).cap = p.cap := by
  rfl
@[simp] theorem inhibitAllOrder_guardCount (p : Part) :
    (inhibitAllOrder p).exch.guardCount = p.exch.guardCount := by
  rfl
@[simp] theorem inhibitAllOrder_guardedOffset (p : Part) :
    (inhibitAllOrder p).exch.guardedOffset = p.exch.guardedOffset := by
  rfl
@[simp] theorem inhibitAllOrder_mem (p : Part) :
    (inhibitAllOrder p).exch.mem = p.exch.mem := by
  rfl

@[simp] theorem rampAllOrder_phase (p : Part) :
    (rampAllOrder p).phase = p.phase := by
  rfl
@[simp] theorem rampAllOrder_pins (p : Part) :
    (rampAllOrder p).pins = p.pins := by
  rfl
@[simp] theorem rampAllOrder_attn (p : Part) :
    (rampAllOrder p).attn = p.attn := by
  rfl
@[simp] theorem rampAllOrder_orders (p : Part) :
    (rampAllOrder p).orders = p.orders := by
  rfl
@[simp] theorem rampAllOrder_acq (p : Part) :
    (rampAllOrder p).acq = p.acq := by
  rfl
@[simp] theorem rampAllOrder_ctl (p : Part) :
    (rampAllOrder p).ctl = p.ctl := by
  rfl
@[simp] theorem rampAllOrder_links (p : Part) :
    (rampAllOrder p).links = p.links := by
  rfl
@[simp] theorem rampAllOrder_allot (p : Part) :
    (rampAllOrder p).allot = p.allot := by
  rfl
@[simp] theorem rampAllOrder_vib (p : Part) :
    (rampAllOrder p).vib = p.vib := by
  rfl
@[simp] theorem rampAllOrder_trip (p : Part) :
    (rampAllOrder p).trip = p.trip := by
  rfl
@[simp] theorem rampAllOrder_cap (p : Part) :
    (rampAllOrder p).cap = p.cap := by
  rfl
@[simp] theorem rampAllOrder_guardCount (p : Part) :
    (rampAllOrder p).exch.guardCount = p.exch.guardCount := by
  rfl
@[simp] theorem rampAllOrder_guardedOffset (p : Part) :
    (rampAllOrder p).exch.guardedOffset = p.exch.guardedOffset := by
  rfl
@[simp] theorem rampAllOrder_mem (p : Part) :
    (rampAllOrder p).exch.mem = p.exch.mem := by
  rfl

@[simp] theorem inhibitOneOrder_phase (m : Motor) (p : Part) :
    (inhibitOneOrder m p).phase = p.phase := by
  unfold inhibitOneOrder; dsimp only; split; · rfl
  · split <;> simp
@[simp] theorem inhibitOneOrder_pins (m : Motor) (p : Part) :
    (inhibitOneOrder m p).pins = p.pins := by
  unfold inhibitOneOrder; dsimp only; split; · rfl
  · split <;> simp
@[simp] theorem inhibitOneOrder_attn (m : Motor) (p : Part) :
    (inhibitOneOrder m p).attn = p.attn := by
  unfold inhibitOneOrder; dsimp only; split; · rfl
  · split <;> simp
@[simp] theorem inhibitOneOrder_orders (m : Motor) (p : Part) :
    (inhibitOneOrder m p).orders = p.orders := by
  unfold inhibitOneOrder; dsimp only; split; · rfl
  · split <;> simp
@[simp] theorem inhibitOneOrder_acq (m : Motor) (p : Part) :
    (inhibitOneOrder m p).acq = p.acq := by
  unfold inhibitOneOrder; dsimp only; split; · rfl
  · split <;> simp
@[simp] theorem inhibitOneOrder_ctl (m : Motor) (p : Part) :
    (inhibitOneOrder m p).ctl = p.ctl := by
  unfold inhibitOneOrder; dsimp only; split; · rfl
  · split <;> simp
@[simp] theorem inhibitOneOrder_links (m : Motor) (p : Part) :
    (inhibitOneOrder m p).links = p.links := by
  unfold inhibitOneOrder; dsimp only; split; · rfl
  · split <;> simp
@[simp] theorem inhibitOneOrder_allot (m : Motor) (p : Part) :
    (inhibitOneOrder m p).allot = p.allot := by
  unfold inhibitOneOrder; dsimp only; split; · rfl
  · split <;> simp
@[simp] theorem inhibitOneOrder_vib (m : Motor) (p : Part) :
    (inhibitOneOrder m p).vib = p.vib := by
  unfold inhibitOneOrder; dsimp only; split; · rfl
  · split <;> simp
@[simp] theorem inhibitOneOrder_trip (m : Motor) (p : Part) :
    (inhibitOneOrder m p).trip = p.trip := by
  unfold inhibitOneOrder; dsimp only; split; · rfl
  · split <;> simp
@[simp] theorem inhibitOneOrder_cap (m : Motor) (p : Part) :
    (inhibitOneOrder m p).cap = p.cap := by
  unfold inhibitOneOrder; dsimp only; split; · rfl
  · split <;> simp
@[simp] theorem inhibitOneOrder_guardCount (m : Motor) (p : Part) :
    (inhibitOneOrder m p).exch.guardCount = p.exch.guardCount := by
  unfold inhibitOneOrder; dsimp only; split; · rfl
  · split <;> simp
@[simp] theorem inhibitOneOrder_guardedOffset (m : Motor) (p : Part) :
    (inhibitOneOrder m p).exch.guardedOffset = p.exch.guardedOffset := by
  unfold inhibitOneOrder; dsimp only; split; · rfl
  · split <;> simp
@[simp] theorem inhibitOneOrder_mem (m : Motor) (p : Part) :
    (inhibitOneOrder m p).exch.mem = p.exch.mem := by
  unfold inhibitOneOrder; dsimp only; split; · rfl
  · split <;> simp

@[simp] theorem tripOrder_phase (c : Cause) (cls : TripClass) (p : Part) :
    (tripOrder c cls p).phase = p.phase := by
  unfold tripOrder; split <;> (try split) <;> simp
@[simp] theorem tripOrder_pins (c : Cause) (cls : TripClass) (p : Part) :
    (tripOrder c cls p).pins = p.pins := by
  unfold tripOrder; split <;> (try split) <;> simp
@[simp] theorem tripOrder_attn (c : Cause) (cls : TripClass) (p : Part) :
    (tripOrder c cls p).attn = p.attn := by
  unfold tripOrder; split <;> (try split) <;> simp
@[simp] theorem tripOrder_orders (c : Cause) (cls : TripClass) (p : Part) :
    (tripOrder c cls p).orders = p.orders := by
  unfold tripOrder; split <;> (try split) <;> simp
@[simp] theorem tripOrder_acq (c : Cause) (cls : TripClass) (p : Part) :
    (tripOrder c cls p).acq = p.acq := by
  unfold tripOrder; split <;> (try split) <;> simp
@[simp] theorem tripOrder_ctl (c : Cause) (cls : TripClass) (p : Part) :
    (tripOrder c cls p).ctl = p.ctl := by
  unfold tripOrder; split <;> (try split) <;> simp
@[simp] theorem tripOrder_links (c : Cause) (cls : TripClass) (p : Part) :
    (tripOrder c cls p).links = p.links := by
  unfold tripOrder; split <;> (try split) <;> simp
@[simp] theorem tripOrder_allot (c : Cause) (cls : TripClass) (p : Part) :
    (tripOrder c cls p).allot = p.allot := by
  unfold tripOrder; split <;> (try split) <;> simp
@[simp] theorem tripOrder_vib (c : Cause) (cls : TripClass) (p : Part) :
    (tripOrder c cls p).vib = p.vib := by
  unfold tripOrder; split <;> (try split) <;> simp
@[simp] theorem tripOrder_trip (c : Cause) (cls : TripClass) (p : Part) :
    (tripOrder c cls p).trip = p.trip := by
  unfold tripOrder; split <;> (try split) <;> simp
@[simp] theorem tripOrder_cap (c : Cause) (cls : TripClass) (p : Part) :
    (tripOrder c cls p).cap = p.cap := by
  unfold tripOrder; split <;> (try split) <;> simp
@[simp] theorem tripOrder_guardCount (c : Cause) (cls : TripClass) (p : Part) :
    (tripOrder c cls p).exch.guardCount = p.exch.guardCount := by
  unfold tripOrder; split <;> (try split) <;> simp
@[simp] theorem tripOrder_guardedOffset (c : Cause) (cls : TripClass) (p : Part) :
    (tripOrder c cls p).exch.guardedOffset = p.exch.guardedOffset := by
  unfold tripOrder; split <;> (try split) <;> simp
@[simp] theorem tripOrder_mem (c : Cause) (cls : TripClass) (p : Part) :
    (tripOrder c cls p).exch.mem = p.exch.mem := by
  unfold tripOrder; split <;> (try split) <;> simp

/-! ## The steps of a trip event -/

@[simp] theorem latchCause_phase (c : Cause) (cls : TripClass) (p : Part) :
    (latchCause c cls p).phase = p.phase := by
  rfl
@[simp] theorem latchCause_pins (c : Cause) (cls : TripClass) (p : Part) :
    (latchCause c cls p).pins = p.pins := by
  rfl
@[simp] theorem latchCause_attn (c : Cause) (cls : TripClass) (p : Part) :
    (latchCause c cls p).attn = p.attn := by
  rfl
@[simp] theorem latchCause_orders (c : Cause) (cls : TripClass) (p : Part) :
    (latchCause c cls p).orders = p.orders := by
  rfl
@[simp] theorem latchCause_acq (c : Cause) (cls : TripClass) (p : Part) :
    (latchCause c cls p).acq = p.acq := by
  rfl
@[simp] theorem latchCause_ctl (c : Cause) (cls : TripClass) (p : Part) :
    (latchCause c cls p).ctl = p.ctl := by
  rfl
@[simp] theorem latchCause_links (c : Cause) (cls : TripClass) (p : Part) :
    (latchCause c cls p).links = p.links := by
  rfl
@[simp] theorem latchCause_seq (c : Cause) (cls : TripClass) (p : Part) :
    (latchCause c cls p).seq = p.seq := by
  rfl
@[simp] theorem latchCause_allot (c : Cause) (cls : TripClass) (p : Part) :
    (latchCause c cls p).allot = p.allot := by
  rfl
@[simp] theorem latchCause_vib (c : Cause) (cls : TripClass) (p : Part) :
    (latchCause c cls p).vib = p.vib := by
  rfl
@[simp] theorem latchCause_cap (c : Cause) (cls : TripClass) (p : Part) :
    (latchCause c cls p).cap = p.cap := by
  rfl
@[simp] theorem latchCause_guardCount (c : Cause) (cls : TripClass) (p : Part) :
    (latchCause c cls p).exch.guardCount = p.exch.guardCount := by
  rfl
@[simp] theorem latchCause_guardedOffset (c : Cause) (cls : TripClass) (p : Part) :
    (latchCause c cls p).exch.guardedOffset = p.exch.guardedOffset := by
  rfl
@[simp] theorem latchCause_mem (c : Cause) (cls : TripClass) (p : Part) :
    (latchCause c cls p).exch.mem = p.exch.mem := by
  rfl

@[simp] theorem startOnTrip_phase (p : Part) :
    (startOnTrip p).phase = p.phase := by
  rfl
@[simp] theorem startOnTrip_pins (p : Part) :
    (startOnTrip p).pins = p.pins := by
  rfl
@[simp] theorem startOnTrip_attn (p : Part) :
    (startOnTrip p).attn = p.attn := by
  rfl
@[simp] theorem startOnTrip_orders (p : Part) :
    (startOnTrip p).orders = p.orders := by
  rfl
@[simp] theorem startOnTrip_acq (p : Part) :
    (startOnTrip p).acq = p.acq := by
  rfl
@[simp] theorem startOnTrip_ctl (p : Part) :
    (startOnTrip p).ctl = p.ctl := by
  rfl
@[simp] theorem startOnTrip_links (p : Part) :
    (startOnTrip p).links = p.links := by
  rfl
@[simp] theorem startOnTrip_seq (p : Part) :
    (startOnTrip p).seq = p.seq := by
  rfl
@[simp] theorem startOnTrip_allot (p : Part) :
    (startOnTrip p).allot = p.allot := by
  rfl
@[simp] theorem startOnTrip_vib (p : Part) :
    (startOnTrip p).vib = p.vib := by
  rfl
@[simp] theorem startOnTrip_trip (p : Part) :
    (startOnTrip p).trip = p.trip := by
  rfl
@[simp] theorem startOnTrip_guardCount (p : Part) :
    (startOnTrip p).exch.guardCount = p.exch.guardCount := by
  rfl
@[simp] theorem startOnTrip_guardedOffset (p : Part) :
    (startOnTrip p).exch.guardedOffset = p.exch.guardedOffset := by
  rfl
@[simp] theorem startOnTrip_mem (p : Part) :
    (startOnTrip p).exch.mem = p.exch.mem := by
  rfl

@[simp] theorem ordersAtTrip_phase (c : Cause) (b : Part) (p : Part) :
    (ordersAtTrip c b p).phase = p.phase := by
  unfold ordersAtTrip; dsimp only; split <;> (try split) <;> simp
@[simp] theorem ordersAtTrip_pins (c : Cause) (b : Part) (p : Part) :
    (ordersAtTrip c b p).pins = p.pins := by
  unfold ordersAtTrip; dsimp only; split <;> (try split) <;> simp
@[simp] theorem ordersAtTrip_acq (c : Cause) (b : Part) (p : Part) :
    (ordersAtTrip c b p).acq = p.acq := by
  unfold ordersAtTrip; dsimp only; split <;> (try split) <;> simp
@[simp] theorem ordersAtTrip_ctl (c : Cause) (b : Part) (p : Part) :
    (ordersAtTrip c b p).ctl = p.ctl := by
  unfold ordersAtTrip; dsimp only; split <;> (try split) <;> simp
@[simp] theorem ordersAtTrip_links (c : Cause) (b : Part) (p : Part) :
    (ordersAtTrip c b p).links = p.links := by
  unfold ordersAtTrip; dsimp only; split <;> (try split) <;> simp
@[simp] theorem ordersAtTrip_seq (c : Cause) (b : Part) (p : Part) :
    (ordersAtTrip c b p).seq = p.seq := by
  unfold ordersAtTrip; dsimp only; split <;> (try split) <;> simp
@[simp] theorem ordersAtTrip_allot (c : Cause) (b : Part) (p : Part) :
    (ordersAtTrip c b p).allot = p.allot := by
  unfold ordersAtTrip; dsimp only; split <;> (try split) <;> simp
@[simp] theorem ordersAtTrip_vib (c : Cause) (b : Part) (p : Part) :
    (ordersAtTrip c b p).vib = p.vib := by
  unfold ordersAtTrip; dsimp only; split <;> (try split) <;> simp
@[simp] theorem ordersAtTrip_trip (c : Cause) (b : Part) (p : Part) :
    (ordersAtTrip c b p).trip = p.trip := by
  unfold ordersAtTrip; dsimp only; split <;> (try split) <;> simp
@[simp] theorem ordersAtTrip_cap (c : Cause) (b : Part) (p : Part) :
    (ordersAtTrip c b p).cap = p.cap := by
  unfold ordersAtTrip; dsimp only; split <;> (try split) <;> simp
@[simp] theorem ordersAtTrip_guardCount (c : Cause) (b : Part) (p : Part) :
    (ordersAtTrip c b p).exch.guardCount = p.exch.guardCount := by
  unfold ordersAtTrip; dsimp only; split <;> (try split) <;> simp
@[simp] theorem ordersAtTrip_guardedOffset (c : Cause) (b : Part) (p : Part) :
    (ordersAtTrip c b p).exch.guardedOffset = p.exch.guardedOffset := by
  unfold ordersAtTrip; dsimp only; split <;> (try split) <;> simp
@[simp] theorem ordersAtTrip_routing (c : Cause) (b : Part) (p : Part) :
    (ordersAtTrip c b p).attn.routing = p.attn.routing := by
  unfold ordersAtTrip; dsimp only; split <;> (try split) <;> simp

@[simp] theorem recordClose_phase (p : Part) :
    (recordClose p).phase = p.phase := by
  unfold recordClose; split <;> simp
@[simp] theorem recordClose_pins (p : Part) :
    (recordClose p).pins = p.pins := by
  unfold recordClose; split <;> simp
@[simp] theorem recordClose_orders (p : Part) :
    (recordClose p).orders = p.orders := by
  unfold recordClose; split <;> simp
@[simp] theorem recordClose_acq (p : Part) :
    (recordClose p).acq = p.acq := by
  unfold recordClose; split <;> simp
@[simp] theorem recordClose_ctl (p : Part) :
    (recordClose p).ctl = p.ctl := by
  unfold recordClose; split <;> simp
@[simp] theorem recordClose_links (p : Part) :
    (recordClose p).links = p.links := by
  unfold recordClose; split <;> simp
@[simp] theorem recordClose_seq (p : Part) :
    (recordClose p).seq = p.seq := by
  unfold recordClose; split <;> simp
@[simp] theorem recordClose_allot (p : Part) :
    (recordClose p).allot = p.allot := by
  unfold recordClose; split <;> simp
@[simp] theorem recordClose_vib (p : Part) :
    (recordClose p).vib = p.vib := by
  unfold recordClose; split <;> simp
@[simp] theorem recordClose_cap (p : Part) :
    (recordClose p).cap = p.cap := by
  unfold recordClose; split <;> simp
@[simp] theorem recordClose_guardCount (p : Part) :
    (recordClose p).exch.guardCount = p.exch.guardCount := by
  unfold recordClose; split <;> simp
@[simp] theorem recordClose_guardedOffset (p : Part) :
    (recordClose p).exch.guardedOffset = p.exch.guardedOffset := by
  unfold recordClose; split <;> simp
@[simp] theorem recordClose_routing (p : Part) :
    (recordClose p).attn.routing = p.attn.routing := by
  unfold recordClose; split <;> simp

@[simp] theorem openRecord_phase (s : SlotId) (h : List (Nat × Word)) (p : Part) :
    (openRecord s h p).phase = p.phase := by
  unfold openRecord; dsimp only; split <;> simp
@[simp] theorem openRecord_pins (s : SlotId) (h : List (Nat × Word)) (p : Part) :
    (openRecord s h p).pins = p.pins := by
  unfold openRecord; dsimp only; split <;> simp
@[simp] theorem openRecord_orders (s : SlotId) (h : List (Nat × Word)) (p : Part) :
    (openRecord s h p).orders = p.orders := by
  unfold openRecord; dsimp only; split <;> simp
@[simp] theorem openRecord_acq (s : SlotId) (h : List (Nat × Word)) (p : Part) :
    (openRecord s h p).acq = p.acq := by
  unfold openRecord; dsimp only; split <;> simp
@[simp] theorem openRecord_ctl (s : SlotId) (h : List (Nat × Word)) (p : Part) :
    (openRecord s h p).ctl = p.ctl := by
  unfold openRecord; dsimp only; split <;> simp
@[simp] theorem openRecord_links (s : SlotId) (h : List (Nat × Word)) (p : Part) :
    (openRecord s h p).links = p.links := by
  unfold openRecord; dsimp only; split <;> simp
@[simp] theorem openRecord_seq (s : SlotId) (h : List (Nat × Word)) (p : Part) :
    (openRecord s h p).seq = p.seq := by
  unfold openRecord; dsimp only; split <;> simp
@[simp] theorem openRecord_allot (s : SlotId) (h : List (Nat × Word)) (p : Part) :
    (openRecord s h p).allot = p.allot := by
  unfold openRecord; dsimp only; split <;> simp
@[simp] theorem openRecord_vib (s : SlotId) (h : List (Nat × Word)) (p : Part) :
    (openRecord s h p).vib = p.vib := by
  unfold openRecord; dsimp only; split <;> simp
@[simp] theorem openRecord_cap (s : SlotId) (h : List (Nat × Word)) (p : Part) :
    (openRecord s h p).cap = p.cap := by
  unfold openRecord; dsimp only; split <;> simp
@[simp] theorem openRecord_guardCount (s : SlotId) (h : List (Nat × Word)) (p : Part) :
    (openRecord s h p).exch.guardCount = p.exch.guardCount := by
  unfold openRecord; dsimp only; split <;> simp
@[simp] theorem openRecord_guardedOffset (s : SlotId) (h : List (Nat × Word)) (p : Part) :
    (openRecord s h p).exch.guardedOffset = p.exch.guardedOffset := by
  unfold openRecord; dsimp only; split <;> simp
@[simp] theorem openRecord_routing (s : SlotId) (h : List (Nat × Word)) (p : Part) :
    (openRecord s h p).attn.routing = p.attn.routing := by
  unfold openRecord; dsimp only; split <;> simp

@[simp] theorem addFollowOn_phase (f : Filling) (c : Cause) (cls : TripClass) (p : Part) :
    (addFollowOn f c cls p).phase = p.phase := by
  unfold addFollowOn; dsimp only; split <;> simp
@[simp] theorem addFollowOn_pins (f : Filling) (c : Cause) (cls : TripClass) (p : Part) :
    (addFollowOn f c cls p).pins = p.pins := by
  unfold addFollowOn; dsimp only; split <;> simp
@[simp] theorem addFollowOn_attn (f : Filling) (c : Cause) (cls : TripClass) (p : Part) :
    (addFollowOn f c cls p).attn = p.attn := by
  unfold addFollowOn; dsimp only; split <;> simp
@[simp] theorem addFollowOn_orders (f : Filling) (c : Cause) (cls : TripClass) (p : Part) :
    (addFollowOn f c cls p).orders = p.orders := by
  unfold addFollowOn; dsimp only; split <;> simp
@[simp] theorem addFollowOn_acq (f : Filling) (c : Cause) (cls : TripClass) (p : Part) :
    (addFollowOn f c cls p).acq = p.acq := by
  unfold addFollowOn; dsimp only; split <;> simp
@[simp] theorem addFollowOn_ctl (f : Filling) (c : Cause) (cls : TripClass) (p : Part) :
    (addFollowOn f c cls p).ctl = p.ctl := by
  unfold addFollowOn; dsimp only; split <;> simp
@[simp] theorem addFollowOn_links (f : Filling) (c : Cause) (cls : TripClass) (p : Part) :
    (addFollowOn f c cls p).links = p.links := by
  unfold addFollowOn; dsimp only; split <;> simp
@[simp] theorem addFollowOn_seq (f : Filling) (c : Cause) (cls : TripClass) (p : Part) :
    (addFollowOn f c cls p).seq = p.seq := by
  unfold addFollowOn; dsimp only; split <;> simp
@[simp] theorem addFollowOn_allot (f : Filling) (c : Cause) (cls : TripClass) (p : Part) :
    (addFollowOn f c cls p).allot = p.allot := by
  unfold addFollowOn; dsimp only; split <;> simp
@[simp] theorem addFollowOn_vib (f : Filling) (c : Cause) (cls : TripClass) (p : Part) :
    (addFollowOn f c cls p).vib = p.vib := by
  unfold addFollowOn; dsimp only; split <;> simp
@[simp] theorem addFollowOn_cap (f : Filling) (c : Cause) (cls : TripClass) (p : Part) :
    (addFollowOn f c cls p).cap = p.cap := by
  unfold addFollowOn; dsimp only; split <;> simp
@[simp] theorem addFollowOn_guardCount (f : Filling) (c : Cause) (cls : TripClass) (p : Part) :
    (addFollowOn f c cls p).exch.guardCount = p.exch.guardCount := by
  unfold addFollowOn; dsimp only; split <;> simp
@[simp] theorem addFollowOn_guardedOffset (f : Filling) (c : Cause) (cls : TripClass) (p : Part) :
    (addFollowOn f c cls p).exch.guardedOffset = p.exch.guardedOffset := by
  unfold addFollowOn; dsimp only; split <;> simp

@[simp] theorem recordTrip_phase (c : Cause) (cls : TripClass) (h : List (Nat × Word)) (p : Part) :
    (recordTrip c cls h p).phase = p.phase := by
  unfold recordTrip; split
  · simp
  · split <;> simp
@[simp] theorem recordTrip_pins (c : Cause) (cls : TripClass) (h : List (Nat × Word)) (p : Part) :
    (recordTrip c cls h p).pins = p.pins := by
  unfold recordTrip; split
  · simp
  · split <;> simp
@[simp] theorem recordTrip_orders (c : Cause) (cls : TripClass) (h : List (Nat × Word)) (p : Part) :
    (recordTrip c cls h p).orders = p.orders := by
  unfold recordTrip; split
  · simp
  · split <;> simp
@[simp] theorem recordTrip_acq (c : Cause) (cls : TripClass) (h : List (Nat × Word)) (p : Part) :
    (recordTrip c cls h p).acq = p.acq := by
  unfold recordTrip; split
  · simp
  · split <;> simp
@[simp] theorem recordTrip_ctl (c : Cause) (cls : TripClass) (h : List (Nat × Word)) (p : Part) :
    (recordTrip c cls h p).ctl = p.ctl := by
  unfold recordTrip; split
  · simp
  · split <;> simp
@[simp] theorem recordTrip_links (c : Cause) (cls : TripClass) (h : List (Nat × Word)) (p : Part) :
    (recordTrip c cls h p).links = p.links := by
  unfold recordTrip; split
  · simp
  · split <;> simp
@[simp] theorem recordTrip_seq (c : Cause) (cls : TripClass) (h : List (Nat × Word)) (p : Part) :
    (recordTrip c cls h p).seq = p.seq := by
  unfold recordTrip; split
  · simp
  · split <;> simp
@[simp] theorem recordTrip_allot (c : Cause) (cls : TripClass) (h : List (Nat × Word)) (p : Part) :
    (recordTrip c cls h p).allot = p.allot := by
  unfold recordTrip; split
  · simp
  · split <;> simp
@[simp] theorem recordTrip_vib (c : Cause) (cls : TripClass) (h : List (Nat × Word)) (p : Part) :
    (recordTrip c cls h p).vib = p.vib := by
  unfold recordTrip; split
  · simp
  · split <;> simp
@[simp] theorem recordTrip_cap (c : Cause) (cls : TripClass) (h : List (Nat × Word)) (p : Part) :
    (recordTrip c cls h p).cap = p.cap := by
  unfold recordTrip; split
  · simp
  · split <;> simp
@[simp] theorem recordTrip_guardCount (c : Cause) (cls : TripClass) (h : List (Nat × Word)) (p : Part) :
    (recordTrip c cls h p).exch.guardCount = p.exch.guardCount := by
  unfold recordTrip; split
  · simp
  · split <;> simp
@[simp] theorem recordTrip_guardedOffset (c : Cause) (cls : TripClass) (h : List (Nat × Word)) (p : Part) :
    (recordTrip c cls h p).exch.guardedOffset = p.exch.guardedOffset := by
  unfold recordTrip; split
  · simp
  · split <;> simp
@[simp] theorem recordTrip_routing (c : Cause) (cls : TripClass) (h : List (Nat × Word)) (p : Part) :
    (recordTrip c cls h p).attn.routing = p.attn.routing := by
  unfold recordTrip; split
  · simp
  · split <;> simp

@[simp] theorem tripEvent_phase (c : Cause) (cls : TripClass) (p : Part) :
    (tripEvent c cls p).phase = p.phase := by
  unfold tripEvent; simp
@[simp] theorem tripEvent_pins (c : Cause) (cls : TripClass) (p : Part) :
    (tripEvent c cls p).pins = p.pins := by
  unfold tripEvent; simp
@[simp] theorem tripEvent_acq (c : Cause) (cls : TripClass) (p : Part) :
    (tripEvent c cls p).acq = p.acq := by
  unfold tripEvent; simp
@[simp] theorem tripEvent_ctl (c : Cause) (cls : TripClass) (p : Part) :
    (tripEvent c cls p).ctl = p.ctl := by
  unfold tripEvent; simp
@[simp] theorem tripEvent_links (c : Cause) (cls : TripClass) (p : Part) :
    (tripEvent c cls p).links = p.links := by
  unfold tripEvent; simp
@[simp] theorem tripEvent_allot (c : Cause) (cls : TripClass) (p : Part) :
    (tripEvent c cls p).allot = p.allot := by
  unfold tripEvent; simp
@[simp] theorem tripEvent_vib (c : Cause) (cls : TripClass) (p : Part) :
    (tripEvent c cls p).vib = p.vib := by
  unfold tripEvent; simp
@[simp] theorem tripEvent_guardCount (c : Cause) (cls : TripClass) (p : Part) :
    (tripEvent c cls p).exch.guardCount = p.exch.guardCount := by
  unfold tripEvent; simp
@[simp] theorem tripEvent_guardedOffset (c : Cause) (cls : TripClass) (p : Part) :
    (tripEvent c cls p).exch.guardedOffset = p.exch.guardedOffset := by
  unfold tripEvent; simp
@[simp] theorem tripEvent_routing (c : Cause) (cls : TripClass) (p : Part) :
    (tripEvent c cls p).attn.routing = p.attn.routing := by
  unfold tripEvent; simp

@[simp] theorem report_phase (c : Cause) (p : Part) :
    (report c p).phase = p.phase := by
  unfold report; split <;> simp
@[simp] theorem report_pins (c : Cause) (p : Part) :
    (report c p).pins = p.pins := by
  unfold report; split <;> simp
@[simp] theorem report_acq (c : Cause) (p : Part) :
    (report c p).acq = p.acq := by
  unfold report; split <;> simp
@[simp] theorem report_ctl (c : Cause) (p : Part) :
    (report c p).ctl = p.ctl := by
  unfold report; split <;> simp
@[simp] theorem report_links (c : Cause) (p : Part) :
    (report c p).links = p.links := by
  unfold report; split <;> simp
@[simp] theorem report_allot (c : Cause) (p : Part) :
    (report c p).allot = p.allot := by
  unfold report; split <;> simp
@[simp] theorem report_vib (c : Cause) (p : Part) :
    (report c p).vib = p.vib := by
  unfold report; split <;> simp
@[simp] theorem report_guardCount (c : Cause) (p : Part) :
    (report c p).exch.guardCount = p.exch.guardCount := by
  unfold report; split <;> simp
@[simp] theorem report_guardedOffset (c : Cause) (p : Part) :
    (report c p).exch.guardedOffset = p.exch.guardedOffset := by
  unfold report; split <;> simp
@[simp] theorem report_routing (c : Cause) (p : Part) :
    (report c p).attn.routing = p.attn.routing := by
  unfold report; split <;> simp

@[simp] theorem raiseHalt_phase (p : Part) :
    (raiseHalt p).phase = p.phase := by
  rfl
@[simp] theorem raiseHalt_pins (p : Part) :
    (raiseHalt p).pins = p.pins := by
  rfl
@[simp] theorem raiseHalt_attn (p : Part) :
    (raiseHalt p).attn = p.attn := by
  rfl
@[simp] theorem raiseHalt_orders (p : Part) :
    (raiseHalt p).orders = p.orders := by
  rfl
@[simp] theorem raiseHalt_acq (p : Part) :
    (raiseHalt p).acq = p.acq := by
  rfl
@[simp] theorem raiseHalt_ctl (p : Part) :
    (raiseHalt p).ctl = p.ctl := by
  rfl
@[simp] theorem raiseHalt_links (p : Part) :
    (raiseHalt p).links = p.links := by
  rfl
@[simp] theorem raiseHalt_allot (p : Part) :
    (raiseHalt p).allot = p.allot := by
  rfl
@[simp] theorem raiseHalt_vib (p : Part) :
    (raiseHalt p).vib = p.vib := by
  rfl
@[simp] theorem raiseHalt_cap (p : Part) :
    (raiseHalt p).cap = p.cap := by
  rfl
@[simp] theorem raiseHalt_guardCount (p : Part) :
    (raiseHalt p).exch.guardCount = p.exch.guardCount := by
  rfl
@[simp] theorem raiseHalt_guardedOffset (p : Part) :
    (raiseHalt p).exch.guardedOffset = p.exch.guardedOffset := by
  rfl
@[simp] theorem raiseHalt_mem (p : Part) :
    (raiseHalt p).exch.mem = p.exch.mem := by
  rfl

@[simp] theorem clearLatched_phase (s : ClearScope) (p : Part) :
    (clearLatched s p).phase = p.phase := by
  rfl
@[simp] theorem clearLatched_pins (s : ClearScope) (p : Part) :
    (clearLatched s p).pins = p.pins := by
  rfl
@[simp] theorem clearLatched_attn (s : ClearScope) (p : Part) :
    (clearLatched s p).attn = p.attn := by
  rfl
@[simp] theorem clearLatched_orders (s : ClearScope) (p : Part) :
    (clearLatched s p).orders = p.orders := by
  rfl
@[simp] theorem clearLatched_acq (s : ClearScope) (p : Part) :
    (clearLatched s p).acq = p.acq := by
  rfl
@[simp] theorem clearLatched_ctl (s : ClearScope) (p : Part) :
    (clearLatched s p).ctl = p.ctl := by
  rfl
@[simp] theorem clearLatched_links (s : ClearScope) (p : Part) :
    (clearLatched s p).links = p.links := by
  rfl
@[simp] theorem clearLatched_seq (s : ClearScope) (p : Part) :
    (clearLatched s p).seq = p.seq := by
  rfl
@[simp] theorem clearLatched_allot (s : ClearScope) (p : Part) :
    (clearLatched s p).allot = p.allot := by
  rfl
@[simp] theorem clearLatched_vib (s : ClearScope) (p : Part) :
    (clearLatched s p).vib = p.vib := by
  rfl
@[simp] theorem clearLatched_cap (s : ClearScope) (p : Part) :
    (clearLatched s p).cap = p.cap := by
  rfl
@[simp] theorem clearLatched_guardCount (s : ClearScope) (p : Part) :
    (clearLatched s p).exch.guardCount = p.exch.guardCount := by
  rfl
@[simp] theorem clearLatched_guardedOffset (s : ClearScope) (p : Part) :
    (clearLatched s p).exch.guardedOffset = p.exch.guardedOffset := by
  rfl
@[simp] theorem clearLatched_mem (s : ClearScope) (p : Part) :
    (clearLatched s p).exch.mem = p.exch.mem := by
  rfl

/-! ## What a trip event does to the set -/

/-- A record written, a follow-on or an unrecorded trip changes neither the set nor the number. -/
@[simp] theorem recordTrip_latched (c : Cause) (cls : TripClass) (h : List (Nat × Word)) (p : Part) :
    (recordTrip c cls h p).trip.latched = p.trip.latched := by
  unfold recordTrip openRecord addFollowOn recordClose
  dsimp only
  split
  · split <;> rfl
  · split
    · split
      · split <;> rfl
      · rfl
    · rfl

@[simp] theorem recordTrip_sequence (c : Cause) (cls : TripClass) (h : List (Nat × Word)) (p : Part) :
    (recordTrip c cls h p).trip.sequence = p.trip.sequence := by
  unfold recordTrip openRecord addFollowOn recordClose
  dsimp only
  split
  · split <;> rfl
  · split
    · split
      · split <;> rfl
      · rfl
    · rfl

/-- Step 1 of R158. -/
@[simp] theorem tripEvent_latched (c : Cause) (cls : TripClass) (p : Part) :
    (tripEvent c cls p).trip.latched = latchInto { cause := c, cls } p.trip.latched := by
  unfold tripEvent
  simp [latchCause]

/-- Step 2 of R158. -/
@[simp] theorem tripEvent_sequence (c : Cause) (cls : TripClass) (p : Part) :
    (tripEvent c cls p).trip.sequence = p.trip.sequence + 1#16 := by
  unfold tripEvent
  simp [latchCause]

/-- Step 4 of R158. -/
@[simp] theorem tripEvent_seq (c : Cause) (cls : TripClass) (p : Part) :
    (tripEvent c cls p).seq = (tripOrder c cls (latchCause c cls p)).seq := by
  unfold tripEvent
  simp

/-- Step 7 of R158. -/
@[simp] theorem tripEvent_cap (c : Cause) (cls : TripClass) (p : Part) :
    (tripEvent c cls p).cap = (startOnTrip p).cap := by
  unfold tripEvent
  simp [startOnTrip]

/-- A raised source is pending, and the other sources are as they were (R8). -/
theorem raiseSource_pending (x y : Source) (p : Part) :
    (raiseSource x p).attn.pending.getLsbD y.number =
      (p.attn.pending.getLsbD y.number || x == y) := by
  show (p.attn.pending ||| (1#8 <<< x.number)).getLsbD y.number = _
  rw [BitVec.getLsbD_or]
  cases x <;> cases y <;> simp [Source.number]

/-! ## A motor taken out, and the windows at an expiry -/

/-- All that `outRunsHeld` does (R55, R67). -/
theorem outRunsHeld_eq (m : Motor) (p : Part) :
    outRunsHeld m p =
      (p.setAcq { p.acq with
        enc := p.acq.enc.set m { p.acq.enc.get m with invalidRun := 0 } }).setCtl
        (p.ctl.set m { p.ctl.get m with runA := 0, runB := 0 }) := by cases m <;> rfl

@[simp] theorem outRunsHeld_seq (m : Motor) (p : Part) : (outRunsHeld m p).seq = p.seq := rfl
@[simp] theorem outRunsHeld_exch (m : Motor) (p : Part) : (outRunsHeld m p).exch = p.exch := rfl
@[simp] theorem outRunsHeld_attn (m : Motor) (p : Part) : (outRunsHeld m p).attn = p.attn := rfl
@[simp] theorem outRunsHeld_orders (m : Motor) (p : Part) : (outRunsHeld m p).orders = p.orders := rfl
@[simp] theorem outRunsHeld_trip (m : Motor) (p : Part) : (outRunsHeld m p).trip = p.trip := rfl

@[simp] theorem Link.windowClosed_state (l : Link) : l.windowClosed.state = l.state := rfl
@[simp] theorem Link.windowClosed_window (l : Link) :
    l.windowClosed.window = l.window.map (fun w => { w with closed := true }) := rfl

/-- A reply that comes after the expiry has closed the window is discarded (R82). -/
theorem replyReceived_of_closed (m : Motor) (words : List Word) (p : Part) (w : ReplyWindow)
    (h : (p.links.get m).window = some w) (hc : w.closed = true) : replyReceived m words p = p := by
  unfold replyReceived
  simp [h, hc]

end Sys2Proof.Machine
end

