-- ==== Sys2Proof/Laws/Memory.lean ====
section
/-! SUPPORT. The exchange memory: what a read gives after a write, and that every operation keeps the
canonical form. -/

namespace Sys2Proof.Machine

/-! ## The canonical form -/

/-- The canonical form, entry by entry: no byte 0, and every later offset higher. -/
theorem Memory.wf_cons (x : Nat) (v : Byte) (rest : Memory) :
    Memory.wf ((x, v) :: rest) = true ↔
      v ≠ 0#8 ∧ (∀ c ∈ rest, x < c.1) ∧ Memory.wf rest = true := by
  induction rest generalizing x v with
  | nil => simp [Memory.wf]
  | cons c rest ih =>
    obtain ⟨y, w⟩ := c
    have h := ih y w
    simp only [Memory.wf, Bool.and_eq_true, bne_iff_ne, ne_eq, decide_eq_true_eq, List.mem_cons,
      forall_eq_or_imp]
    constructor
    · rintro ⟨⟨h1, h2⟩, h3⟩
      exact ⟨h1, ⟨h2, fun c hc => lt_trans h2 ((h.1 h3).2.1 c hc)⟩, h3⟩
    · rintro ⟨h1, ⟨h2, _⟩, h3⟩
      exact ⟨⟨h1, h2⟩, h3⟩

/-- An offset below every listed one reads 0. -/
theorem readByte_below (m : Memory) (a : Nat) (h : ∀ c ∈ m, a < c.1) : readByte m a = 0#8 := by
  induction m with
  | nil => rfl
  | cons c rest ih =>
    obtain ⟨x, v⟩ := c
    have hx : a < x := h (x, v) (by simp)
    simp only [readByte]
    rw [if_neg (by omega)]
    exact ih (fun c hc => h c (by simp [hc]))

/-- Every offset that `writeByte` lists is the one written or was listed before. -/
theorem mem_writeByte (m : Memory) (a : Nat) (v : Byte) (c : Host.Cell) (h : c ∈ writeByte m a v) :
    c.1 = a ∨ c ∈ m := by
  induction m with
  | nil =>
    simp only [writeByte] at h
    split at h <;> simp_all
  | cons d rest ih =>
    obtain ⟨x, w⟩ := d
    simp only [writeByte] at h
    split at h
    · split at h
      · exact .inr h
      · rcases List.mem_cons.1 h with rfl | h
        · exact .inl rfl
        · exact .inr h
    · split at h
      · split at h
        · exact .inr (List.mem_cons_of_mem _ h)
        · rcases List.mem_cons.1 h with rfl | h
          · exact .inl rfl
          · exact .inr (List.mem_cons_of_mem _ h)
      · rcases List.mem_cons.1 h with rfl | h
        · exact .inr (by simp)
        · rcases ih h with h | h
          · exact .inl h
          · exact .inr (List.mem_cons_of_mem _ h)

/-- A byte written keeps the canonical form. -/
theorem wf_writeByte (m : Memory) (a : Nat) (v : Byte) (h : Memory.wf m = true) :
    Memory.wf (writeByte m a v) = true := by
  induction m with
  | nil =>
    simp only [writeByte]
    split
    · rfl
    · next hv => simpa [Memory.wf] using hv
  | cons c rest ih =>
    obtain ⟨x, w⟩ := c
    obtain ⟨hw, hlt, hrest⟩ := (Memory.wf_cons x w rest).1 h
    simp only [writeByte]
    split
    · next hax =>
      split
      · exact h
      · next hv =>
        refine (Memory.wf_cons a v _).2 ⟨hv, ?_, h⟩
        intro c hc
        rcases List.mem_cons.1 hc with rfl | hc
        · exact hax
        · exact lt_trans hax (hlt c hc)
    · next hax =>
      split
      · next heq =>
        split
        · exact hrest
        · next hv => exact (Memory.wf_cons a v rest).2 ⟨hv, fun c hc => heq ▸ hlt c hc, hrest⟩
      · next hne =>
        refine (Memory.wf_cons x w _).2 ⟨hw, ?_, ih hrest⟩
        intro c hc
        rcases mem_writeByte rest a v c hc with h' | h'
        · omega
        · exact hlt c h'

/-- A byte read after a byte written. -/
theorem readByte_writeByte (m : Memory) (a b : Nat) (v : Byte) (h : Memory.wf m = true) :
    readByte (writeByte m a v) b = if b = a then v else readByte m b := by
  induction m with
  | nil =>
    simp only [writeByte]
    split
    · next hv => subst hv; simp [readByte]
    · simp only [readByte]; split <;> split <;> simp_all
  | cons c rest ih =>
    obtain ⟨x, w⟩ := c
    obtain ⟨hw, hlt, hrest⟩ := (Memory.wf_cons x w rest).1 h
    simp only [writeByte]
    split
    · next hax =>
      have ha : readByte ((x, w) :: rest) a = 0#8 := by
        refine readByte_below _ _ ?_
        intro c hc
        rcases List.mem_cons.1 hc with rfl | hc
        · exact hax
        · exact lt_trans hax (hlt c hc)
      split
      · next hv =>
        split
        · next hb => rw [hb, ha, hv]
        · rfl
      · rw [readByte]
        by_cases hb : b = a
        · simp [hb]
        · rw [if_neg (fun h => hb h.symm), if_neg hb]
    · next hax =>
      split
      · next heq =>
        subst heq
        have ha : readByte rest a = 0#8 := readByte_below rest a hlt
        split
        · next hv =>
          by_cases hb : b = a
          · rw [if_pos hb, hb, ha, hv]
          · simp only [readByte]; rw [if_neg hb, if_neg (fun h => hb h.symm)]
        · simp only [readByte]
          by_cases hb : b = a
          · simp [hb]
          · rw [if_neg (fun h => hb h.symm), if_neg hb, if_neg (fun h => hb h.symm)]
      · next hne =>
        simp only [readByte, ih hrest]
        by_cases hb : b = a
        · subst hb
          rw [if_neg (by omega)]
          simp
        · simp [hb]

/-! ## Words -/

theorem wf_writeWord (m : Memory) (off : Nat) (w : Word) (h : Memory.wf m = true) :
    Memory.wf (writeWord m off w) = true :=
  wf_writeByte _ _ _ (wf_writeByte _ _ _ h)

theorem wf_writeWords (m : Memory) (off : Nat) (ws : List Word) (h : Memory.wf m = true) :
    Memory.wf (writeWords m off ws) = true := by
  induction ws generalizing m off with
  | nil => exact h
  | cons w ws ih => exact ih _ _ (wf_writeWord m off w h)

theorem wf_writeFields (m : Memory) (base : Nat) (fs : List (Nat × Word)) (h : Memory.wf m = true) :
    Memory.wf (writeFields m base fs) = true := by
  induction fs generalizing m with
  | nil => exact h
  | cons f fs ih => exact ih _ (wf_writeWord m _ _ h)

theorem wf_filter (m : Memory) (f : Host.Cell → Bool) (h : Memory.wf m = true) :
    Memory.wf (m.filter f) = true := by
  induction m with
  | nil => rfl
  | cons c rest ih =>
    obtain ⟨x, v⟩ := c
    obtain ⟨hv, hlt, hrest⟩ := (Memory.wf_cons x v rest).1 h
    simp only [List.filter_cons]
    split
    · refine (Memory.wf_cons x v _).2 ⟨hv, ?_, ih hrest⟩
      intro c hc
      exact hlt c (List.mem_filter.1 hc).1
    · exact ih hrest

theorem wf_zeroRange (m : Memory) (lo hi : Nat) (h : Memory.wf m = true) :
    Memory.wf (zeroRange m lo hi) = true := wf_filter m _ h

/-- A word written is read back. -/
theorem readWord_writeWord_same (m : Memory) (off : Nat) (w : Word) (h : Memory.wf m = true) :
    readWord (writeWord m off w) off = w := by
  unfold readWord writeWord
  have h1 := wf_writeByte m off (w.extractLsb' 0 8) h
  rw [readByte_writeByte _ _ _ _ h1, readByte_writeByte _ _ _ _ h1, if_pos rfl, if_neg (by omega),
    readByte_writeByte _ _ _ _ h, if_pos rfl]
  ext i hi
  simp only [BitVec.getElem_append, BitVec.getElem_extractLsb']
  split
  · simp [BitVec.getLsbD_eq_getElem hi]
  · rw [show 8 + (i - 8) = i by omega, BitVec.getLsbD_eq_getElem hi]

/-- A byte outside a word written is as before. -/
theorem readByte_writeWord_other (m : Memory) (off a : Nat) (w : Word) (h : Memory.wf m = true)
    (ha : a ≠ off) (ha' : a ≠ off + 1) : readByte (writeWord m off w) a = readByte m a := by
  unfold writeWord
  rw [readByte_writeByte _ _ _ _ (wf_writeByte _ _ _ h), if_neg ha', readByte_writeByte _ _ _ _ h,
    if_neg ha]

/-- A word apart from a word written is as before. -/
theorem readWord_writeWord_other (m : Memory) (off a : Nat) (w : Word) (h : Memory.wf m = true)
    (ha : a + 2 ≤ off ∨ off + 2 ≤ a) : readWord (writeWord m off w) a = readWord m a := by
  unfold readWord
  rw [readByte_writeWord_other m off (a + 1) w h (by omega) (by omega),
    readByte_writeWord_other m off a w h (by omega) (by omega)]

/-- A byte outside a run of words written is as before. -/
theorem readByte_writeWords_other (m : Memory) (off a : Nat) (ws : List Word) (h : Memory.wf m = true)
    (ha : a < off ∨ off + 2 * ws.length ≤ a) : readByte (writeWords m off ws) a = readByte m a := by
  induction ws generalizing m off with
  | nil => rfl
  | cons w ws ih =>
    simp only [List.length_cons] at ha
    simp only [writeWords]
    rw [ih (writeWord m off w) (off + 2) (wf_writeWord m off w h) (by omega),
      readByte_writeWord_other m off a w h (by omega) (by omega)]

/-- A word apart from a run of words written is as before. -/
theorem readWord_writeWords_other (m : Memory) (off a : Nat) (ws : List Word) (h : Memory.wf m = true)
    (ha : a + 2 ≤ off ∨ off + 2 * ws.length ≤ a) :
    readWord (writeWords m off ws) a = readWord m a := by
  unfold readWord
  rw [readByte_writeWords_other m off (a + 1) ws h (by omega),
    readByte_writeWords_other m off a ws h (by omega)]

/-- A run of words written is read back. -/
theorem readWords_writeWords_same (m : Memory) (off : Nat) (ws : List Word) (h : Memory.wf m = true) :
    readWords (writeWords m off ws) off ws.length = ws := by
  induction ws generalizing m off with
  | nil => rfl
  | cons w ws ih =>
    simp only [writeWords, List.length_cons, readWords]
    rw [ih _ _ (wf_writeWord m off w h), readWord_writeWords_other _ _ _ _ (wf_writeWord m off w h)
      (by omega), readWord_writeWord_same m off w h]

/-- A byte that no named word covers is as before. -/
theorem readByte_writeFields_other (m : Memory) (base a : Nat) (fs : List (Nat × Word))
    (h : Memory.wf m = true) (ha : ∀ f ∈ fs, a ≠ base + f.1 ∧ a ≠ base + f.1 + 1) :
    readByte (writeFields m base fs) a = readByte m a := by
  induction fs generalizing m with
  | nil => rfl
  | cons f fs ih =>
    obtain ⟨off, w⟩ := f
    simp only [writeFields]
    have := ha (off, w) (by simp)
    rw [ih _ (wf_writeWord m _ w h) (fun g hg => ha g (by simp [hg])),
      readByte_writeWord_other m _ a w h this.1 this.2]

/-- A byte read after a range was zeroed. -/
theorem readByte_zeroRange (m : Memory) (lo hi a : Nat) :
    readByte (zeroRange m lo hi) a = if lo ≤ a ∧ a < hi then 0#8 else readByte m a := by
  induction m with
  | nil => simp [zeroRange, readByte]
  | cons c rest ih =>
    obtain ⟨x, v⟩ := c
    simp only [zeroRange, List.filter_cons, readByte] at ih ⊢
    by_cases hx : (x < lo ∨ hi ≤ x)
    · simp only [Bool.or_eq_true, decide_eq_true_eq, hx, if_true, readByte, ih]
      by_cases hxa : x = a
      · subst hxa; rw [if_pos rfl, if_neg (by omega)]; simp
      · simp [hxa]
    · simp only [Bool.or_eq_true, decide_eq_true_eq, hx, if_false, ih]
      by_cases hxa : x = a
      · subst hxa; rw [if_pos (by omega), if_pos (by omega)]
      · simp [hxa]

/-! ## Order cells -/

/-- A cell lies within the region of order cells. -/
theorem cellOffset_bounds (n : CellId) : 0x100 ≤ cellOffset n ∧ cellOffset n + 0x40 ≤ 0x500 := by
  unfold cellOffset Config.cellBase Config.cellBytes
  omega

/-- Two cells share no byte. -/
theorem cellOffset_apart (n k : CellId) (h : n ≠ k) :
    cellOffset n + 0x40 ≤ cellOffset k ∨ cellOffset k + 0x40 ≤ cellOffset n := by
  have : n.val ≠ k.val := fun e => h (Fin.ext e)
  unfold cellOffset Config.cellBase Config.cellBytes
  omega

/-- A slot lies in the slot region. -/
theorem slotOffset_low (s : SlotId) : 0x10000 ≤ slotOffset s := by
  cases s <;> decide

theorem resultValues_length (vs : List Word) : (resultValues vs).length = 8 := by
  simp [resultValues]

/-- What finishing a cell writes (R13): the state word, the result code, the values and the done frame. -/
theorem finishedMemory_spec (m : Memory) (n : CellId) (frame : BitVec 32) (c : ResultCode)
    (vs : List Word) (h : Memory.wf m = true) :
    let m' := finishedMemory m n frame c vs
    let base := cellOffset n
    Memory.wf m' = true ∧
    readWord m' base = c.state ∧
    readWord m' (base + 0x0E) = wordOfNat c.code ∧
    readWords m' (base + 0x10) 8 = resultValues vs ∧
    readWords m' (base + 0x0A) 2 = wordsOf32 frame ∧
    (∀ a, a ≠ base → a ≠ base + 1 → (a < base + 0x0A ∨ base + 0x20 ≤ a) →
      readByte m' a = readByte m a) := by
  intro m' base
  have hv := resultValues_length vs
  have h1 : Memory.wf (writeWords m (base + 0x10) (resultValues vs)) = true := wf_writeWords _ _ _ h
  have h2 := wf_writeWords _ (base + 0x0A) (wordsOf32 frame) h1
  have h3 := wf_writeWord _ (base + 0x0E) (wordOfNat c.code) h2
  have hf : (wordsOf32 frame).length = 2 := rfl
  refine ⟨wf_writeWord _ _ _ h3, readWord_writeWord_same _ _ _ h3, ?_, ?_, ?_, ?_⟩
  · show readWord (writeWord _ base _) _ = _
    rw [readWord_writeWord_other _ _ _ _ h3 (by omega), readWord_writeWord_same _ _ _ h2]
  · have key := readWords_writeWords_same m (base + 0x10) (resultValues vs) h
    rw [hv] at key
    rw [← key]
    show readWords (writeWord (writeWord (writeWords _ _ _) _ _) base _) _ 8 = _
    have hword : ∀ k, k < 8 →
        readWord m' (base + 0x10 + 2 * k) =
          readWord (writeWords m (base + 0x10) (resultValues vs)) (base + 0x10 + 2 * k) := by
      intro k hk
      show readWord (writeWord (writeWord (writeWords _ _ _) _ _) base _) _ = _
      rw [readWord_writeWord_other _ _ _ _ h3 (by omega), readWord_writeWord_other _ _ _ _ h2 (by omega),
        readWord_writeWords_other _ _ _ _ h1 (by rw [hf]; omega)]
    have e0 := hword 0 (by omega)
    have e1 := hword 1 (by omega)
    have e2 := hword 2 (by omega)
    have e3 := hword 3 (by omega)
    have e4 := hword 4 (by omega)
    have e5 := hword 5 (by omega)
    have e6 := hword 6 (by omega)
    have e7 := hword 7 (by omega)
    simp only [Nat.mul_zero, Nat.add_zero, Nat.reduceMul, Nat.add_assoc, Nat.reduceAdd] at e0 e1 e2 e3 e4 e5 e6 e7
    simp only [readWords, Nat.add_assoc, Nat.reduceAdd]
    show [readWord m' _, readWord m' _, readWord m' _, readWord m' _, readWord m' _, readWord m' _,
      readWord m' _, readWord m' _] = _
    rw [e0, e1, e2, e3, e4, e5, e6, e7]
  · have key := readWords_writeWords_same _ (base + 0x0A) (wordsOf32 frame) h1
    rw [hf] at key
    rw [← key]
    have hword : ∀ k, k < 2 →
        readWord m' (base + 0x0A + 2 * k) =
          readWord (writeWords (writeWords m (base + 0x10) (resultValues vs)) (base + 0x0A)
            (wordsOf32 frame)) (base + 0x0A + 2 * k) := by
      intro k hk
      show readWord (writeWord (writeWord (writeWords _ _ _) _ _) base _) _ = _
      rw [readWord_writeWord_other _ _ _ _ h3 (by omega), readWord_writeWord_other _ _ _ _ h2 (by omega)]
    have e0 := hword 0 (by omega)
    have e1 := hword 1 (by omega)
    simp only [Nat.mul_zero, Nat.add_zero, Nat.reduceMul, Nat.add_assoc, Nat.reduceAdd] at e0 e1
    simp only [readWords, Nat.add_assoc, Nat.reduceAdd]
    rw [e0, e1]
  · intro a ha0 ha1 ha
    show readByte (writeWord _ base _) _ = _
    rw [readByte_writeWord_other _ _ _ _ h3 ha0 ha1,
      readByte_writeWord_other _ _ _ _ h2 (by omega) (by omega),
      readByte_writeWords_other _ _ _ _ h1 (by rw [hf]; omega),
      readByte_writeWords_other _ _ _ _ h (by rw [hv]; omega)]

/-- The memory after a power-on reset is in the canonical form. -/
theorem wf_atPowerOn : Memory.wf Memory.atPowerOn = true := by decide

end Sys2Proof.Machine
end

