-- ==== Sys2Proof/Laws/Orders.lean ====
section
/-! SUPPORT. What taking, finishing and accepting an order leave, each said once. -/

namespace Sys2Proof.Machine

theorem raisesOnly_raiseSource (x : Source) (p : Part) : Part.raisesOnly [x] p (raiseSource x p) := by
  refine ⟨rfl, fun src => ?_⟩
  show (raiseSource x p).attn.pending.getLsbD src.number = _
  rw [raiseSource_pending]
  cases x <;> cases src <;> rfl

/-- Taking a cell stores its taken frame. -/
theorem takeCell_spec (n : CellId) (p : Part) (h : Memory.wf p.exch.mem = true) :
    let m := (takeCell n p).exch.mem
    Memory.wf m = true ∧
    readWords m (cellOffset n + 0x06) 2 = wordsOf32 p.acq.frameCount ∧
    (∀ a, (a < cellOffset n + 0x06 ∨ cellOffset n + 0x0A ≤ a) → readByte m a = readByte p.exch.mem a) := by
  refine ⟨wf_writeWords _ _ _ h, readWords_writeWords_same _ _ (wordsOf32 p.acq.frameCount) h, ?_⟩
  intro a ha
  exact readByte_writeWords_other _ _ _ _ h (by simp only [wordsOf32, List.length_cons, List.length_nil]; omega)

/-- Words of a memory that agrees with another on a range are the other's. -/
theorem readWord_congr (m m' : Memory) (a : Nat) (h0 : readByte m' a = readByte m a)
    (h1 : readByte m' (a + 1) = readByte m (a + 1)) : readWord m' a = readWord m a := by
  unfold readWord
  rw [h0, h1]

theorem readWords_congr (m m' : Memory) (a k : Nat)
    (h : ∀ b, a ≤ b → b < a + 2 * k → readByte m' b = readByte m b) :
    readWords m' a k = readWords m a k := by
  induction k generalizing a with
  | zero => rfl
  | succ k ih =>
    simp only [readWords]
    rw [readWord_congr m m' a (h a (by omega) (by omega)) (h (a + 1) (by omega) (by omega)),
      ih (a + 2) (fun b hb hb' => h b (by omega) (by omega))]

/-- The arguments of a cell are as they were before it was taken (R13). -/
theorem cellArg_takeCell (n k : CellId) (j : Nat) (p : Part) (h : Memory.wf p.exch.mem = true)
    (hj : j < 16) : cellArg (takeCell n p) k j = cellArg p k j := by
  obtain ⟨_, _, hsame⟩ := takeCell_spec n p h
  have hb := cellOffset_bounds n
  have hk := cellOffset_bounds k
  have apart : k = n ∨ cellOffset n + 0x40 ≤ cellOffset k ∨ cellOffset k + 0x40 ≤ cellOffset n := by
    by_cases hkn : k = n
    · exact .inl hkn
    · exact .inr (cellOffset_apart n k (fun e => hkn e.symm))
  unfold cellArg
  refine readWord_congr _ _ _ (hsame _ ?_) (hsame _ ?_) <;>
  · rcases apart with rfl | h | h <;> omega

/-- Words outside the cells are as they were before a cell was taken. -/
theorem readWords_takeCell (n : CellId) (a k : Nat) (p : Part) (h : Memory.wf p.exch.mem = true)
    (ha : 0x500 ≤ a) : readWords (takeCell n p).exch.mem a k = readWords p.exch.mem a k := by
  obtain ⟨_, _, hsame⟩ := takeCell_spec n p h
  have hb := cellOffset_bounds n
  exact readWords_congr _ _ _ _ (fun b hb' _ => hsame b (by omega))

/-- A cell finished in the scan that took it, whatever was done to the other blocks in between. -/
theorem orderAnswered_of (n : CellId) (code : ResultCode) (values : List Word) (p r : Part)
    (h : Memory.wf p.exch.mem = true) (hexch : r.exch = (takeCell n p).exch)
    (hframe : r.acq.frameCount = p.acq.frameCount) (hattn : r.attn = p.attn)
    (hcount : r.orders.taken = p.orders.taken + 1#32) :
    OrderAnswered n code values p (finishCell n code values r) := by
  obtain ⟨hwf, htf, hsame⟩ := takeCell_spec n p h
  rw [← hexch] at hwf htf hsame
  obtain ⟨_, hs, hc, hv, hd, hother⟩ :=
    finishedMemory_spec r.exch.mem n r.acq.frameCount code values hwf
  rw [hframe] at hd
  constructor
  · exact ⟨by simpa [hframe] using hs, by simpa [hframe] using hc, by simpa [hframe] using hv,
      by simpa [hframe] using hd⟩
  · refine ⟨?_, by simpa using hcount⟩
    rw [← htf]
    refine readWords_congr _ _ _ _ (fun b hb hb' => ?_)
    exact hother b (by omega) (by omega) (by omega)
  · have := raisesOnly_raiseSource .order (r.setMem (finishedMemory r.exch.mem n r.acq.frameCount code values))
    refine ⟨?_, fun src => ?_⟩
    · rw [← hattn]; rfl
    · have h2 := this.2 src
      have : Part.raised (r.setMem (finishedMemory r.exch.mem n r.acq.frameCount code values)) src =
          p.raised src := by unfold Part.raised; rw [← hattn]; rfl
      rw [this] at h2
      exact h2
  · refine ⟨fun a ha => ?_, ?_, ?_⟩
    · unfold cellAnswerByte at ha
      rw [finishCell_mem, hother a (by omega) (by omega) (by omega)]
      exact hsame a (by omega)
    · show r.exch.guardCount = _
      rw [hexch]; rfl
    · show r.exch.guardedOffset = _
      rw [hexch]; rfl

/-- A refused order (R13). -/
theorem orderRefused_of (n : CellId) (code : ResultCode) (values : List Word) (p : Part)
    (h : Memory.wf p.exch.mem = true) :
    OrderRefused n code values p (finishCell n code values (takeCell n p)) := by
  refine ⟨orderAnswered_of n code values p _ h rfl rfl rfl rfl, rfl, ?_⟩
  intro b hb
  cases b <;> simp at hb <;> rfl

/-- A cell set TAKEN in the scan that took it, whatever was done to the other blocks in between. -/
theorem orderAccepted_of (n : CellId) (p r q : Part) (h : Memory.wf p.exch.mem = true)
    (hexch : r.exch = (takeCell n p).exch) (hq : q.exch = (setTaken n r).exch)
    (hcount : q.orders.taken = p.orders.taken + 1#32) : OrderAccepted n p q := by
  obtain ⟨hwf, htf, hsame⟩ := takeCell_spec n p h
  rw [← hexch] at hwf htf hsame
  have hm : q.exch.mem = writeWord r.exch.mem (cellOffset n) cellTaken := by rw [hq]; rfl
  constructor
  · rw [hm]; exact readWord_writeWord_same _ _ _ hwf
  · refine ⟨?_, hcount⟩
    rw [hm, ← htf]
    refine readWords_congr _ _ _ _ (fun b hb hb' => ?_)
    exact readByte_writeWord_other _ _ _ _ hwf (by omega) (by omega)
  · refine ⟨fun a ha => ?_, ?_, ?_⟩
    · unfold cellAnswerByte at ha
      rw [hm, readByte_writeWord_other _ _ _ _ hwf (by omega) (by omega)]
      exact hsame a (by omega)
    · rw [hq]; show r.exch.guardCount = _; rw [hexch]; rfl
    · rw [hq]; show r.exch.guardedOffset = _; rw [hexch]; rfl

end Sys2Proof.Machine
end

