-- ==== Sys2Proof/Laws/PerInstr.lean ====
section
/-! SUPPORT. What a well-formed command is, constructor by constructor. -/

namespace Sys2Proof.Laws.WellFormedness

open Sys2Proof

/-- A list without repeats is one in which no element stands twice. -/
theorem nodup_of_noRepeats {α : Type} [DecidableEq α] (xs : List α) (h : noRepeats xs = true) :
    xs.Nodup := by
  induction xs with
  | nil => exact List.nodup_nil
  | cons x xs ih =>
    simp only [noRepeats, Bool.and_eq_true, Bool.not_eq_true', List.contains_eq_mem,
      decide_eq_false_iff_not] at h
    exact List.nodup_cons.2 ⟨h.1, ih h.2⟩

/-- A well-formed command names no block twice in an order of work, and a reply frame has a word. -/
def Statement (i : Instr) : Prop :=
  i.wellFormed = true →
    (∀ order, i = .supervisionFrame order → order.Nodup) ∧
    (∀ order, i = .scanComplete order → order.Nodup) ∧
    (∀ m words, i = .replyReceived m words → words ≠ [])

theorem powerOnReset : Statement .powerOnReset :=
  fun _ => by simp

theorem resetEnd : Statement .resetEnd :=
  fun _ => by simp

theorem partResetRequest (value : Word) : Statement (.partResetRequest value) :=
  fun _ => by simp

theorem attentionAcknowledge (value : Word) : Statement (.attentionAcknowledge value) :=
  fun _ => by simp

theorem routingWrite (value : Word) : Statement (.routingWrite value) :=
  fun _ => by simp

theorem registerWriteIgnored (value : Word) : Statement (.registerWriteIgnored value) :=
  fun _ => by simp

theorem hostWrite (word : BitVec 16) (value : Word) : Statement (.hostWrite word value) :=
  fun _ => by simp

theorem hostRead (target : ReadTarget) : Statement (.hostRead target) :=
  fun _ => by simp

theorem controlPeriodExpiry : Statement .controlPeriodExpiry :=
  fun _ => by simp

theorem supervisionFrame (order : List FrameBlock) : Statement (.supervisionFrame order) :=
  fun h => ⟨fun o e => by cases e; exact nodup_of_noRepeats _ h, by simp, by simp⟩

theorem conversionSlotEnd (input : Option Int) : Statement (.conversionSlotEnd input) :=
  fun _ => by simp

theorem scanComplete (order : List ScanBlock) : Statement (.scanComplete order) :=
  fun h => ⟨by simp, fun o e => by cases e; exact nodup_of_noRepeats _ h, by simp⟩

theorem currentSensorLost (m : Motor) : Statement (.currentSensorLost m) :=
  fun _ => by simp

theorem windowEnd (c : Accel) : Statement (.windowEnd c) :=
  fun _ => by simp

theorem captureBlockWrite (e : EngineId) : Statement (.captureBlockWrite e) :=
  fun _ => by simp

theorem captureComplete (e : EngineId) : Statement (.captureComplete e) :=
  fun _ => by simp

theorem selftestSettlingEnd : Statement .selftestSettlingEnd :=
  fun _ => by simp

theorem selftestMeasuringEnd : Statement .selftestMeasuringEnd :=
  fun _ => by simp

theorem selftestEnd : Statement .selftestEnd :=
  fun _ => by simp

theorem encoderTransition (m : Motor) (p : Bool) (q : Bool) : Statement (.encoderTransition m p q) :=
  fun _ => by simp

theorem encoderValidRegained (m : Motor) : Statement (.encoderValidRegained m) :=
  fun _ => by simp

theorem lineBreakAsserted (m : Motor) : Statement (.lineBreakAsserted m) :=
  fun _ => by simp

theorem lineBreakReleased (m : Motor) : Statement (.lineBreakReleased m) :=
  fun _ => by simp

theorem encoderLost (m : Motor) : Statement (.encoderLost m) :=
  fun _ => by simp

theorem overspeed : Statement .overspeed :=
  fun _ => by simp

theorem speedMismatch : Statement .speedMismatch :=
  fun _ => by simp

theorem unknownKind (cell : CellId) : Statement (.unknownKind cell) :=
  fun _ => by simp

theorem applySettings (cell : CellId) : Statement (.applySettings cell) :=
  fun _ => by simp

theorem applyRatings (cell : CellId) : Statement (.applyRatings cell) :=
  fun _ => by simp

theorem run (cell : CellId) : Statement (.run cell) :=
  fun _ => by simp

theorem stop (cell : CellId) : Statement (.stop cell) :=
  fun _ => by simp

theorem halt (cell : CellId) : Statement (.halt cell) :=
  fun _ => by simp

theorem setSpeed (cell : CellId) : Statement (.setSpeed cell) :=
  fun _ => by simp

theorem clearTrip (cell : CellId) : Statement (.clearTrip cell) :=
  fun _ => by simp

theorem motorOut (cell : CellId) : Statement (.motorOut cell) :=
  fun _ => by simp

theorem motorIn (cell : CellId) : Statement (.motorIn cell) :=
  fun _ => by simp

theorem capture (cell : CellId) : Statement (.capture cell) :=
  fun _ => by simp

theorem captureCancel (cell : CellId) : Statement (.captureCancel cell) :=
  fun _ => by simp

theorem vibSelftest (cell : CellId) : Statement (.vibSelftest cell) :=
  fun _ => by simp

theorem linkTest (cell : CellId) : Statement (.linkTest cell) :=
  fun _ => by simp

theorem linkReset (cell : CellId) : Statement (.linkReset cell) :=
  fun _ => by simp

theorem replyReceived (m : Motor) (words : List Word) : Statement (.replyReceived m words) :=
  fun h => ⟨by simp, by simp, fun n ws e => by
    cases e
    intro hw
    rw [hw] at h
    exact Bool.noConfusion h⟩

theorem replyWindowClose (m : Motor) : Statement (.replyWindowClose m) :=
  fun _ => by simp

theorem linkUp (m : Motor) : Statement (.linkUp m) :=
  fun _ => by simp

theorem linkLost (m : Motor) : Statement (.linkLost m) :=
  fun _ => by simp

theorem tripInAsserted : Statement .tripInAsserted :=
  fun _ => by simp

theorem tripInReleased : Statement .tripInReleased :=
  fun _ => by simp

theorem recordClose : Statement .recordClose :=
  fun _ => by simp

theorem tripRampEnd (m : Motor) : Statement (.tripRampEnd m) :=
  fun _ => by simp

theorem magnetizingRampFinished : Statement .magnetizingRampFinished :=
  fun _ => by simp

theorem failedStart : Statement .failedStart :=
  fun _ => by simp

theorem gearOverload : Statement .gearOverload :=
  fun _ => by simp

theorem derateHoldExpiry (g : VibGroup) : Statement (.derateHoldExpiry g) :=
  fun _ => by simp

end Sys2Proof.Laws.WellFormedness
end

