-- ==== Sys2Proof/Laws/Records.lean ====
section
/-! SUPPORT. What the record writer does with a trip event (R168 to R172), said once. -/

namespace Sys2Proof.Machine

/-! ## Reading a record back -/

/-- A word apart from a zeroed range is as before. -/
theorem readWord_zeroRange_other (m : Memory) (lo hi a : Nat) (ha : a + 2 ≤ lo ∨ hi ≤ a) :
    readWord (zeroRange m lo hi) a = readWord m a := by
  unfold readWord
  rw [readByte_zeroRange, readByte_zeroRange, if_neg (by omega), if_neg (by omega)]

/-- A word within a zeroed range is 0. -/
theorem readWord_zeroRange_same (m : Memory) (lo hi a : Nat) (ha : lo ≤ a) (ha' : a + 2 ≤ hi) :
    readWord (zeroRange m lo hi) a = 0#16 := by
  unfold readWord
  rw [readByte_zeroRange, readByte_zeroRange, if_pos (by omega), if_pos (by omega)]
  rfl

/-- A word that no named word overlaps is as before. -/
theorem readWord_writeFields_other (m : Memory) (base a : Nat) (fs : List (Nat × Word))
    (h : Memory.wf m = true) (ha : ∀ f ∈ fs, a + 2 ≤ base + f.1 ∨ base + f.1 + 2 ≤ a) :
    readWord (writeFields m base fs) a = readWord m a := by
  unfold readWord
  rw [readByte_writeFields_other _ _ _ _ h (fun f hf => by have := ha f hf; omega),
    readByte_writeFields_other _ _ _ _ h (fun f hf => by have := ha f hf; omega)]

/-- Fields that share no byte are read back, each at its offset. -/
theorem readWord_writeFields_same (m : Memory) (base : Nat) (fs : List (Nat × Word))
    (h : Memory.wf m = true)
    (apart : (fs.map Prod.fst).Pairwise (fun x y => x + 2 ≤ y ∨ y + 2 ≤ x)) :
    ∀ f ∈ fs, readWord (writeFields m base fs) (base + f.1) = f.2 := by
  induction fs generalizing m with
  | nil => simp
  | cons g fs ih =>
    obtain ⟨off, w⟩ := g
    simp only [List.map_cons, List.pairwise_cons] at apart
    intro f hf
    rcases List.mem_cons.1 hf with rfl | hf
    · simp only [writeFields]
      rw [readWord_writeFields_other _ _ _ _ (wf_writeWord _ _ _ h), readWord_writeWord_same _ _ _ h]
      intro f hf
      have := apart.1 f.1 (List.mem_map.2 ⟨f, hf, rfl⟩)
      omega
    · exact ih _ (wf_writeWord _ _ _ h) apart.2 f hf

theorem HistoryEntry.words_length (x : HistoryEntry) : x.words.length = 16 := rfl

theorem flatMap_words_length (l : List HistoryEntry) :
    (l.flatMap HistoryEntry.words).length = 16 * l.length := by
  induction l with
  | nil => rfl
  | cons x l ih =>
    simp only [List.flatMap_cons, List.length_append, ih, HistoryEntry.words_length, List.length_cons]
    omega

/-! ## The header -/

/-- The offsets of the header's named words. -/
theorem recordHeader_offsets (c : Cause) (cls : TripClass) (p : Part) :
    (recordHeader c cls p).map Prod.fst =
      [0x02, 0x04, 0x06, 0x08, 0x0A, 0x22, 0x24, 0x26, 0x28, 0x30, 0x32, 0x34, 0x36, 0x38, 0x3A, 0x3C,
       0x3E, 0x40, 0x42, 0x44, 0x46, 0x48, 0x4A, 0x4C, 0x4E, 0x50, 0x52, 0x54, 0x56, 0x58, 0x5A,
       0x60, 0x62, 0x64, 0x66, 0x68, 0x6A, 0x6C, 0x6E, 0x70, 0x72, 0x74, 0x76, 0x78, 0x7A,
       0x80, 0x82, 0x84, 0x86, 0x88, 0x8A, 0x8C, 0x8E, 0x90, 0x92, 0x94, 0x96, 0x98, 0x9A] := rfl

theorem recordHeader_apart (c : Cause) (cls : TripClass) (p : Part) :
    ((recordHeader c cls p).map Prod.fst).Pairwise (fun x y => x + 2 ≤ y ∨ y + 2 ≤ x) := by
  rw [recordHeader_offsets]
  decide

/-- Every offset of the header lies in it, apart from the words that are written on their own. -/
theorem recordHeader_bounds (c : Cause) (cls : TripClass) (p : Part) (f : Nat × Word)
    (hf : f ∈ recordHeader c cls p) :
    2 ≤ f.1 ∧ f.1 + 2 ≤ 0x200 ∧ f.1 ≠ 0x0C ∧ f.1 ≠ 0x0E ∧ f.1 ≠ 0x20 ∧ f.1 ≠ 0x2A ∧ f.1 ≠ 0x2C ∧
      f.1 ≠ 0x2E ∧ f.1 % 2 = 0 := by
  have h : f.1 ∈ (recordHeader c cls p).map Prod.fst := List.mem_map.2 ⟨f, hf, rfl⟩
  rw [recordHeader_offsets] at h
  have all : ∀ o ∈ ([0x02, 0x04, 0x06, 0x08, 0x0A, 0x22, 0x24, 0x26, 0x28, 0x30, 0x32, 0x34, 0x36, 0x38,
      0x3A, 0x3C, 0x3E, 0x40, 0x42, 0x44, 0x46, 0x48, 0x4A, 0x4C, 0x4E, 0x50, 0x52, 0x54, 0x56, 0x58,
      0x5A, 0x60, 0x62, 0x64, 0x66, 0x68, 0x6A, 0x6C, 0x6E, 0x70, 0x72, 0x74, 0x76, 0x78, 0x7A,
      0x80, 0x82, 0x84, 0x86, 0x88, 0x8A, 0x8C, 0x8E, 0x90, 0x92, 0x94, 0x96, 0x98, 0x9A] : List Nat),
      2 ≤ o ∧ o + 2 ≤ 0x200 ∧ o ≠ 0x0C ∧ o ≠ 0x0E ∧ o ≠ 0x20 ∧ o ≠ 0x2A ∧ o ≠ 0x2C ∧ o ≠ 0x2E ∧
      o % 2 = 0 := by decide
  exact all _ h

/-- The words of the header that are sampled from the part, each at its place (R169). -/
theorem recordFields_in_header (c : Cause) (cls : TripClass) (p : Part) :
    ∀ f ∈ recordFields c cls p,
      (f.1 ∈ [0x0C, 0x0E, 0x20, 0x2C] ∧ f.2 = 0#16) ∨ f ∈ recordHeader c cls (latchCause c cls p) := by
  have at' : ∀ (k : Nat) (f : Nat × Word), (recordHeader c cls (latchCause c cls p))[k]? = some f →
      f ∈ recordHeader c cls (latchCause c cls p) := fun _ _ hk => List.mem_of_getElem? hk
  intro f hf
  simp only [recordFields, List.mem_cons, List.not_mem_nil, or_false] at hf
  rcases hf with rfl | rfl | rfl | rfl | rfl | rfl | rfl | rfl | rfl | rfl | rfl | rfl | rfl | rfl |
    rfl | rfl | rfl
  · exact .inr (at' 0 _ rfl)
  · exact .inr (at' 1 _ rfl)
  · exact .inr (at' 2 _ rfl)
  · exact .inl ⟨by decide, rfl⟩
  · exact .inl ⟨by decide, rfl⟩
  · exact .inl ⟨by decide, rfl⟩
  · exact .inl ⟨by decide, rfl⟩
  · exact .inr (at' 5 _ rfl)
  · exact .inr (at' 6 _ rfl)
  · exact .inr (at' 7 _ rfl)
  · exact .inr (at' 8 _ rfl)
  · exact .inr (at' 11 _ rfl)
  · exact .inr (at' 12 _ rfl)
  · exact .inr (at' 13 _ rfl)
  · exact .inr (at' 14 _ rfl)
  · exact .inr (at' 15 _ rfl)
  · exact .inr (at' 16 _ rfl)

/-- The base of a motor's context in the header (spec 09, "Header layout"). -/
def contextBase : Motor → Nat
  | .a => 0x60
  | .b => 0x80

/-- The words of a motor's context, each at its place (R169). -/
theorem recordMotorFields_in_header (c : Cause) (cls : TripClass) (p : Part) (m : Motor) :
    ∀ f ∈ recordMotorFields p m,
      (contextBase m + f.1, f.2) ∈ recordHeader c cls (latchCause c cls p) := by
  intro f hf
  have inContext : (contextBase m + f.1, f.2) ∈ motorContext (latchCause c cls p) m (contextBase m) := by
    have e : motorContext (latchCause c cls p) m (contextBase m) =
        (recordMotorFields p m).map (fun g => (contextBase m + g.1, g.2)) := rfl
    rw [e]
    exact List.mem_map.2 ⟨f, hf, rfl⟩
  unfold recordHeader
  cases m
  · exact List.mem_append_left _ (List.mem_append_right _ inContext)
  · exact List.mem_append_right _ inContext

/-- A vibration group's three words, each at its place (R169). -/
theorem groupContext_in_header (c : Cause) (cls : TripClass) (p : Part) (g : VibGroup) :
    ∀ f ∈ groupContext p g, f ∈ recordHeader c cls (latchCause c cls p) := by
  intro f hf
  have e : groupContext (latchCause c cls p) g = groupContext p g := rfl
  unfold recordHeader
  refine List.mem_append_left _ (List.mem_append_left _ (List.mem_append_left _
    (List.mem_append_right _ (List.mem_flatMap.2 ⟨g, ?_, by rw [e]; exact hf⟩))))
  cases g <;> decide

/-! ## The record opened -/

/-- What a record opened in a slot holds, whatever the header written into it (R168 to R170). -/
theorem openRecord_spec (x : SlotId) (c : Cause) (cls : TripClass) (r p : Part)
    (h : Memory.wf p.exch.mem = true) :
    let q := openRecord x (recordHeader c cls r) p
    let base := slotOffset x
    let pre := recordPreTrip p
    slotState q x = (if p.settings.postTrip = 0 then slotReady else slotFilling) ∧
    q.trip = { p.trip with filling := q.trip.filling } ∧
    q.trip.filling = (if p.settings.postTrip = 0 then none
      else some { slot := x, preTrip := p.settings.preTrip, postTrip := p.settings.postTrip
                  preWritten := pre.length, postWritten := 0, listed := 0, more := 0, frames := 0 }) ∧
    q.raised .record = (p.raised .record || p.settings.postTrip == 0) ∧
    (∀ f ∈ recordHeader c cls r, readWord q.exch.mem (base + f.1) = f.2) ∧
    (∀ o ∈ [0x0C, 0x0E, 0x20, 0x2C], readWord q.exch.mem (base + o) = 0#16) ∧
    readWord q.exch.mem (base + 0x2A) = wordOfNat pre.length ∧
    readWords q.exch.mem (base + 0x400) (16 * pre.length) = pre.flatMap HistoryEntry.words ∧
    readWord q.exch.mem (base + 0x2E) = wordOfNat p.trip.fast.length ∧
    ((p.trip.fast.flatMap FastEntry.words).length ≤ 256 →
      readWords q.exch.mem (base + 0x200) (p.trip.fast.flatMap FastEntry.words).length =
        p.trip.fast.flatMap FastEntry.words ∧
      ∀ a, (a < base ∨ base + 0x400 + 32 * pre.length ≤ a) →
        readByte q.exch.mem a = readByte p.exch.mem a) := by
  intro q base pre
  set fastWords := p.trip.fast.flatMap FastEntry.words with hfast
  set preWords := pre.flatMap HistoryEntry.words with hpre
  have hlen : preWords.length = 16 * pre.length := flatMap_words_length pre
  let m1 := writeWord p.exch.mem base slotFilling
  let m2 := zeroRange m1 (base + 0x002) (base + 0x200)
  let m3 := writeFields m2 base (recordHeader c cls r)
  let m4 := zeroRange m3 (base + 0x200) (base + 0x400)
  let m5 := writeWords m4 (base + 0x200) fastWords
  let m6 := writeWord m5 (base + 0x02E) (wordOfNat p.trip.fast.length)
  let m7 := writeWords m6 (base + 0x400) preWords
  let m8 := writeWord m7 (base + 0x02A) (wordOfNat pre.length)
  have w1 : Memory.wf m1 = true := wf_writeWord _ _ _ h
  have w2 : Memory.wf m2 = true := wf_zeroRange _ _ _ w1
  have w3 : Memory.wf m3 = true := wf_writeFields _ _ _ w2
  have w4 : Memory.wf m4 = true := wf_zeroRange _ _ _ w3
  have w5 : Memory.wf m5 = true := wf_writeWords _ _ _ w4
  have w6 : Memory.wf m6 = true := wf_writeWord _ _ _ w5
  have w7 : Memory.wf m7 = true := wf_writeWords _ _ _ w6
  have w8 : Memory.wf m8 = true := wf_writeWord _ _ _ w7
  have hq : q.exch.mem = if p.settings.postTrip = 0 then writeWord m8 base slotReady else m8 := by
    show (openRecord x _ p).exch.mem = _
    unfold openRecord
    dsimp only
    split_ifs <;> rfl
  -- every word but the state word is read from m8
  have last : ∀ a, (a + 2 ≤ base ∨ base + 2 ≤ a) → readWord q.exch.mem a = readWord m8 a := by
    intro a ha
    rw [hq]
    split_ifs
    · exact readWord_writeWord_other _ _ _ _ w8 (by omega)
    · rfl
  have lastByte : ∀ a, a ≠ base → a ≠ base + 1 → readByte q.exch.mem a = readByte m8 a := by
    intro a ha ha'
    rw [hq]
    split_ifs
    · exact readByte_writeWord_other _ _ _ _ w8 ha ha'
    · rfl
  -- a header word apart from the two counts is read from m3
  have header : ∀ o, 2 ≤ o → o + 2 ≤ 0x200 → (o + 2 ≤ 0x2A ∨ 0x30 ≤ o ∨ o = 0x2C) →
      readWord q.exch.mem (base + o) = readWord m3 (base + o) := by
    intro o h1 h2 h3
    rw [last _ (by omega), readWord_writeWord_other _ _ _ _ w7 (by omega),
      readWord_writeWords_other _ _ _ _ w6 (by omega), readWord_writeWord_other _ _ _ _ w5 (by omega),
      readWord_writeWords_other _ _ _ _ w4 (by omega), readWord_zeroRange_other _ _ _ _ (by omega)]
  refine ⟨?_, ?_, ?_, ?_, ?_, ?_, ?_, ?_, ?_, ?_⟩
  · show readWord q.exch.mem base = _
    rw [hq]
    split_ifs
    · exact readWord_writeWord_same _ _ _ w8
    · rw [readWord_writeWord_other _ _ _ _ w7 (by omega), readWord_writeWords_other _ _ _ _ w6 (by omega),
        readWord_writeWord_other _ _ _ _ w5 (by omega), readWord_writeWords_other _ _ _ _ w4 (by omega),
        readWord_zeroRange_other _ _ _ _ (by omega), readWord_writeFields_other _ _ _ _ w2,
        readWord_zeroRange_other _ _ _ _ (by omega), readWord_writeWord_same _ _ _ h]
      intro f hf
      have := recordHeader_bounds c cls r f hf
      omega
  · show (openRecord x (recordHeader c cls r) p).trip = { p.trip with
      filling := (openRecord x (recordHeader c cls r) p).trip.filling }
    unfold openRecord
    dsimp only
    split_ifs <;> rfl
  · show (openRecord x _ p).trip.filling = _
    unfold openRecord
    dsimp only
    split_ifs <;> rfl
  · show (openRecord x _ p).raised .record = _
    unfold openRecord
    dsimp only
    split_ifs with h0
    · rw [h0]
      show (raiseSource .record _).attn.pending.getLsbD Source.record.number = _
      rw [raiseSource_pending]
      simp
    · have : (p.settings.postTrip == 0) = false := by simpa using h0
      rw [this, Bool.or_false]
      rfl
  · intro f hf
    have hb := recordHeader_bounds c cls r f hf
    rw [header f.1 (by omega) (by omega) (by omega)]
    exact readWord_writeFields_same _ _ _ w2 (recordHeader_apart c cls r) f hf
  · intro o ho
    have hcases : o = 0x0C ∨ o = 0x0E ∨ o = 0x20 ∨ o = 0x2C := by simpa using ho
    rw [header o (by omega) (by omega) (by omega), readWord_writeFields_other _ _ _ _ w2]
    · exact readWord_zeroRange_same _ _ _ _ (by omega) (by omega)
    · intro f hf
      have := recordHeader_bounds c cls r f hf
      omega
  · rw [last _ (by omega)]
    exact readWord_writeWord_same _ _ _ w7
  · rw [← hlen, ← readWords_writeWords_same m6 (base + 0x400) preWords w6]
    rw [readWords_writeWords_same m6 (base + 0x400) preWords w6]
    conv_rhs => rw [← readWords_writeWords_same m6 (base + 0x400) preWords w6]
    refine readWords_congr _ _ _ _ (fun b hb _ => ?_)
    rw [lastByte _ (by omega) (by omega)]
    exact readByte_writeWord_other _ _ _ _ w7 (by omega) (by omega)
  · rw [last _ (by omega), readWord_writeWord_other _ _ _ _ w7 (by omega),
      readWord_writeWords_other _ _ _ _ w6 (by omega)]
    exact readWord_writeWord_same _ _ _ w5
  · intro hle
    refine ⟨?_, fun a ha => ?_⟩
    · conv_rhs => rw [← readWords_writeWords_same m4 (base + 0x200) fastWords w4]
      refine readWords_congr _ _ _ _ (fun b hb hb' => ?_)
      rw [lastByte _ (by omega) (by omega), readByte_writeWord_other _ _ _ _ w7 (by omega) (by omega),
        readByte_writeWords_other _ _ _ _ w6 (by omega),
        readByte_writeWord_other _ _ _ _ w5 (by omega) (by omega)]
    · rw [lastByte _ (by omega) (by omega), readByte_writeWord_other _ _ _ _ w7 (by omega) (by omega),
        readByte_writeWords_other _ _ _ _ w6 (by omega),
        readByte_writeWord_other _ _ _ _ w5 (by omega) (by omega),
        readByte_writeWords_other _ _ _ _ w4 (by omega), readByte_zeroRange, if_neg (by omega),
        readByte_writeFields_other _ _ _ _ w2, readByte_zeroRange, if_neg (by omega),
        readByte_writeWord_other _ _ _ _ h (by omega) (by omega)]
      intro f hf
      have := recordHeader_bounds c cls r f hf
      omega

/-- A follow-on as the record writer notes it (R171). -/
theorem addFollowOn_spec (f : Filling) (c : Cause) (cls : TripClass) (p : Part)
    (h : Memory.wf p.exch.mem = true) :
    FollowOnNoted f c cls p (addFollowOn f c cls p) ∧
    (addFollowOn f c cls p).trip = { p.trip with filling := (addFollowOn f c cls p).trip.filling } := by
  unfold addFollowOn
  dsimp only
  have w1 : Memory.wf (writeWords p.exch.mem (slotOffset f.slot + 0x010 + 4 * f.listed)
      [wordOfNat (c.number + 256 * cls.code), wordOfNat f.frames]) = true := wf_writeWords _ _ _ h
  split_ifs with hl
  · refine ⟨⟨by simp [hl], fun _ => ⟨?_, ?_, ?_⟩, fun h4 => absurd hl (by omega), rfl⟩, rfl⟩
    · have same := readWords_writeWords_same p.exch.mem (slotOffset f.slot + 0x010 + 4 * f.listed)
        [wordOfNat (c.number + 256 * cls.code), wordOfNat f.frames] h
      simp only [List.length_cons, List.length_nil] at same
      refine Eq.trans ?_ same
      refine readWords_congr _ _ (slotOffset f.slot + 0x010 + 4 * f.listed) 2 (fun b hb hb' => ?_)
      show readByte (writeWord _ _ _) b = _
      rw [readByte_writeWord_other _ _ _ _ w1 (by omega) (by omega)]
    · exact readWord_writeWord_same _ _ _ w1
    · intro a _ ha ha' hout
      show readByte (writeWord _ _ _) a = _
      rw [readByte_writeWord_other _ _ _ _ w1 (by omega) (by omega),
        readByte_writeWords_other _ _ _ _ h (by simp only [List.length_cons, List.length_nil]; omega)]
  · refine ⟨⟨by simp [hl, countUp], fun h4 => absurd h4 hl, fun _ => ⟨?_, ?_⟩, rfl⟩, rfl⟩
    · exact readWord_writeWord_same _ _ _ h
    · intro a _ ha ha'
      exact readByte_writeWord_other _ _ _ _ h (by omega) (by omega)

end Sys2Proof.Machine
end

