-- ==== Sys2Proof/Laws/Trips.lean ====
section
/-! SUPPORT. What a trip event stores and leaves (R158), each said once. -/

namespace Sys2Proof.Machine

/-- A memory that another extends: canonical when that one is, and the same outside `stored`. -/
def Stores (stored : Nat → Prop) (m m' : Memory) : Prop :=
  Memory.wf m = true → Memory.wf m' = true ∧ ∀ a, ¬ stored a → readByte m' a = readByte m a

theorem Stores.refl (stored : Nat → Prop) (m : Memory) : Stores stored m m := fun h => ⟨h, fun _ _ => rfl⟩

theorem Stores.trans {stored : Nat → Prop} {m m' m'' : Memory} (h : Stores stored m m')
    (h' : Stores stored m' m'') : Stores stored m m'' := by
  intro hwf
  obtain ⟨w1, e1⟩ := h hwf
  obtain ⟨w2, e2⟩ := h' w1
  exact ⟨w2, fun a ha => (e2 a ha).trans (e1 a ha)⟩

theorem Stores.mono {stored wider : Nat → Prop} {m m' : Memory} (h : Stores stored m m')
    (hsub : ∀ a, stored a → wider a) : Stores wider m m' :=
  fun hwf => ⟨(h hwf).1, fun a ha => (h hwf).2 a (fun hs => ha (hsub a hs))⟩

theorem stores_writeWord (m : Memory) (off : Nat) (w : Word) :
    Stores (fun a => off ≤ a ∧ a < off + 2) m (writeWord m off w) :=
  fun h => ⟨wf_writeWord _ _ _ h, fun a ha =>
    readByte_writeWord_other _ _ _ _ h (by omega) (by omega)⟩

theorem stores_writeWords (m : Memory) (off : Nat) (ws : List Word) :
    Stores (fun a => off ≤ a ∧ a < off + 2 * ws.length) m (writeWords m off ws) :=
  fun h => ⟨wf_writeWords _ _ _ h, fun a ha => readByte_writeWords_other _ _ _ _ h (by omega)⟩

theorem stores_zeroRange (m : Memory) (lo hi : Nat) :
    Stores (fun a => lo ≤ a ∧ a < hi) m (zeroRange m lo hi) :=
  fun h => ⟨wf_zeroRange _ _ _ h, fun a ha => by rw [readByte_zeroRange, if_neg ha]⟩

theorem stores_writeFields (m : Memory) (base : Nat) (fs : List (Nat × Word)) :
    Stores (fun a => base ≤ a) m (writeFields m base fs) := by
  induction fs generalizing m with
  | nil => exact Stores.refl _ _
  | cons f fs ih =>
    obtain ⟨off, w⟩ := f
    exact ((stores_writeWord m (base + off) w).mono (fun a ha => by omega)).trans (ih _)

theorem stores_finishedMemory (m : Memory) (n : CellId) (frame : BitVec 32) (c : ResultCode)
    (vs : List Word) : Stores (cellAnswerByte n) m (finishedMemory m n frame c vs) := by
  intro h
  obtain ⟨hwf, _, _, _, _, hother⟩ := finishedMemory_spec m n frame c vs h
  refine ⟨hwf, fun a ha => hother a ?_ ?_ ?_⟩ <;> unfold cellAnswerByte at ha <;> omega

theorem stores_finishRun (c : ResultCode) (p : Part) :
    Stores (fun a => ∃ r, p.orders.run = some r ∧ cellAnswerByte r.cell a) p.exch.mem
      (finishRun c p).exch.mem := by
  unfold finishRun
  cases h : p.orders.run with
  | none => exact Stores.refl _ _
  | some r =>
    rw [finishCell_mem, Part.setOrders_exch]
    exact (stores_finishedMemory _ r.cell _ c []).mono (fun a ha => ⟨r, rfl, ha⟩)

theorem stores_finishStop (c : ResultCode) (p : Part) :
    Stores (fun a => ∃ n, p.orders.stop = some n ∧ cellAnswerByte n a) p.exch.mem
      (finishStop c p).exch.mem := by
  unfold finishStop
  cases h : p.orders.stop with
  | none => exact Stores.refl _ _
  | some n =>
    rw [finishCell_mem, Part.setOrders_exch]
    exact (stores_finishedMemory _ n _ c []).mono (fun a ha => ⟨n, rfl, ha⟩)

theorem finishRun_stop (c : ResultCode) (p : Part) : (finishRun c p).orders.stop = p.orders.stop := by
  unfold finishRun
  split <;> rfl

theorem stores_ordersAtTrip (c : Cause) (before p : Part) :
    Stores (fun a => (∃ r, p.orders.run = some r ∧ cellAnswerByte r.cell a) ∨
      (∃ n, p.orders.stop = some n ∧ cellAnswerByte n a)) p.exch.mem
      (ordersAtTrip c before p).exch.mem := by
  have fin : ∀ q : Part, q.orders.stop = p.orders.stop →
      Stores (fun a => (∃ r, p.orders.run = some r ∧ cellAnswerByte r.cell a) ∨
        (∃ n, p.orders.stop = some n ∧ cellAnswerByte n a)) q.exch.mem
        (finishStop .abortedByTrip q).exch.mem := by
    intro q hq
    exact (stores_finishStop _ q).mono (fun a ⟨n, h, ha⟩ => .inr ⟨n, hq ▸ h, ha⟩)
  unfold ordersAtTrip
  cases h : p.orders.run with
  | none => simpa only [h] using fin p rfl
  | some r =>
    simp only []
    split
    · refine Stores.trans ?_ (by simpa only [h] using fin _ (finishRun_stop _ _))
      refine (stores_finishRun .abortedByTrip p).mono (fun a ⟨x, hx, ha⟩ => .inl ⟨x, ?_, ha⟩)
      rw [← h, hx]
    · simpa only [h] using fin p rfl

/-- The bytes of the trip-record slots. -/
def slotByte (a : Nat) : Prop := Config.slotBase ≤ a

theorem stores_recordClose (p : Part) : Stores slotByte p.exch.mem (recordClose p).exch.mem := by
  unfold recordClose
  cases p.trip.filling with
  | none => exact Stores.refl _ _
  | some f =>
    have := slotOffset_low f.slot
    exact (stores_writeWord _ _ _).mono (fun a ha => by unfold slotByte Config.slotBase; omega)

theorem stores_openRecord (s : SlotId) (header : List (Nat × Word)) (p : Part) :
    Stores slotByte p.exch.mem (openRecord s header p).exch.mem := by
  have low := slotOffset_low s
  have key : ∀ a, slotOffset s ≤ a → slotByte a := by
    intro a ha; unfold slotByte Config.slotBase; omega
  have opened : ∀ m : Memory, Stores slotByte p.exch.mem m →
      ∀ f, Stores slotByte p.exch.mem (recordClose ((p.setMem m).setTrip f)).exch.mem := by
    intro m h f
    exact h.trans (stores_recordClose ((p.setMem m).setTrip f))
  unfold openRecord
  dsimp only
  split
  all_goals first
    | refine opened _ ?_ _
    | skip
  all_goals
    refine Stores.trans ?_ ((stores_writeWord _ _ _).mono (fun a ha => key a (by omega)))
    refine Stores.trans ?_ ((stores_writeWords _ _ _).mono (fun a ha => key a (by omega)))
    refine Stores.trans ?_ ((stores_writeWord _ _ _).mono (fun a ha => key a (by omega)))
    refine Stores.trans ?_ ((stores_writeWords _ _ _).mono (fun a ha => key a (by omega)))
    refine Stores.trans ?_ ((stores_zeroRange _ _ _).mono (fun a ha => key a (by omega)))
    refine Stores.trans ?_ ((stores_writeFields _ _ _).mono (fun a ha => key a (by omega)))
    refine Stores.trans ?_ ((stores_zeroRange _ _ _).mono (fun a ha => key a (by omega)))
    exact (stores_writeWord _ _ _).mono (fun a ha => key a (by omega))

theorem stores_recordTrip (c : Cause) (cls : TripClass) (header : List (Nat × Word)) (p : Part) :
    Stores slotByte p.exch.mem (recordTrip c cls header p).exch.mem := by
  unfold recordTrip
  split
  · rename_i f _
    have low := slotOffset_low f.slot
    have key : ∀ a, slotOffset f.slot ≤ a → slotByte a := by
      intro a ha; unfold slotByte Config.slotBase; omega
    unfold addFollowOn
    dsimp only
    split
    · exact ((stores_writeWords _ _ _).mono (fun a ha => key a (by omega))).trans
        ((stores_writeWord _ _ _).mono (fun a ha => key a (by omega)))
    · exact (stores_writeWord _ _ _).mono (fun a ha => key a (by omega))
  · split
    · exact stores_openRecord _ _ _
    · exact Stores.refl _ _

/-- The memory after a trip event (R158): canonical, and the same outside `tripByte`. -/
theorem stores_tripEvent (c : Cause) (cls : TripClass) (p : Part) :
    Stores (tripByte p) p.exch.mem (tripEvent c cls p).exch.mem := by
  have h3 := stores_ordersAtTrip c (latchCause c cls p) (tripOrder c cls (latchCause c cls p))
  have h4 := stores_recordTrip c cls (recordHeader c cls (latchCause c cls p))
    (ordersAtTrip c (latchCause c cls p) (tripOrder c cls (latchCause c cls p)))
  have hmem : (tripOrder c cls (latchCause c cls p)).exch.mem = p.exch.mem := by
    simp
  have hord : (tripOrder c cls (latchCause c cls p)).orders = p.orders := by simp
  rw [hmem, hord] at h3
  have e : (tripEvent c cls p).exch.mem = (recordTrip c cls (recordHeader c cls (latchCause c cls p))
    (ordersAtTrip c (latchCause c cls p) (tripOrder c cls (latchCause c cls p)))).exch.mem := rfl
  rw [e]
  refine Stores.trans (h3.mono ?_) (h4.mono ?_)
  · rintro a (h | h)
    · exact .inr (.inl h)
    · exact .inr (.inr h)
  · exact fun a ha => .inl ha

/-! ## The record of a trip event -/

/-- What raising a source leaves pending. -/
theorem raised_raiseSource (x src : Source) (p : Part) :
    (raiseSource x p).raised src = (p.raised src || (x == src)) := by
  have h := (raisesOnly_raiseSource x p).2 src
  rw [h]
  cases x <;> cases src <;> rfl

theorem raised_finishCell (n : CellId) (code : ResultCode) (vs : List Word) (p : Part) (src : Source) :
    (finishCell n code vs p).raised src = (p.raised src || (.order == src)) :=
  raised_raiseSource .order src _

theorem finishRun_settings (code : ResultCode) (p : Part) : (finishRun code p).settings = p.settings := by
  unfold finishRun Part.settings
  split <;> simp

theorem finishStop_settings (code : ResultCode) (p : Part) :
    (finishStop code p).settings = p.settings := by
  unfold finishStop Part.settings
  split <;> simp

theorem raised_finishRun (code : ResultCode) (p : Part) (src : Source) :
    (finishRun code p).raised src = (p.raised src || (p.orders.run.isSome && .order == src)) := by
  unfold finishRun
  split <;> rename_i h
  · simp [h]
  · rw [raised_finishCell, h]; rfl

theorem raised_finishStop (code : ResultCode) (p : Part) (src : Source) :
    (finishStop code p).raised src = (p.raised src || (p.orders.stop.isSome && .order == src)) := by
  unfold finishStop
  split <;> rename_i h
  · simp [h]
  · rw [raised_finishCell, h]; rfl

theorem conditionBits_latchCause (c : Cause) (cls : TripClass) (p : Part) :
    conditionBits (latchCause c cls p) = conditionBits p := by
  have h : ∀ x : Cause, conditionPresent (latchCause c cls p) x = conditionPresent p x := by
    intro x
    cases x <;> rfl
  unfold conditionBits
  rw [funext h]

/-- Step 4 and 5 of R158 leave the trip unit, the settings and every slot as they were. -/
theorem trip_steps_keep (c : Cause) (cls : TripClass) (p : Part) (h : Memory.wf p.exch.mem = true) :
    let r := ordersAtTrip c (latchCause c cls p) (tripOrder c cls (latchCause c cls p))
    Memory.wf r.exch.mem = true ∧ r.trip = (latchCause c cls p).trip ∧ r.settings = p.settings ∧
    r.raised .record = p.raised .record ∧
    ∀ a, Config.slotBase ≤ a → readByte r.exch.mem a = readByte p.exch.mem a := by
  intro r
  have h3 := stores_ordersAtTrip c (latchCause c cls p) (tripOrder c cls (latchCause c cls p))
  have hmem : (tripOrder c cls (latchCause c cls p)).exch.mem = p.exch.mem := by simp
  rw [hmem] at h3
  obtain ⟨w3, e3⟩ := h3 h
  have both : r.settings = p.settings ∧ r.raised .record = p.raised .record := by
    have e1 : (tripOrder c cls (latchCause c cls p)).settings = p.settings := by
      unfold Part.settings; simp
    have e2 : (tripOrder c cls (latchCause c cls p)).raised .record = p.raised .record := by
      unfold Part.raised; simp
    show (ordersAtTrip c _ _).settings = _ ∧ (ordersAtTrip c _ _).raised .record = _
    unfold ordersAtTrip
    dsimp only
    have norec : ∀ b : Bool, (b && Source.order == Source.record) = false := by decide
    rw [finishStop_settings, raised_finishStop, norec, Bool.or_false]
    split
    · split_ifs
      · exact ⟨(finishRun_settings _ _).trans e1, by rw [raised_finishRun, norec, Bool.or_false]; exact e2⟩
      · exact ⟨e1, e2⟩
    · exact ⟨e1, e2⟩
  refine ⟨w3, ?_, both.1, both.2, fun a ha => e3 a ?_⟩
  · show (ordersAtTrip c _ _).trip = _
    simp
  · rintro (⟨x, _, hx⟩ | ⟨n, _, hn⟩)
    · have := cellOffset_bounds x.cell
      unfold cellAnswerByte at hx
      unfold Config.slotBase at ha
      omega
    · have := cellOffset_bounds n
      unfold cellAnswerByte at hn
      unfold Config.slotBase at ha
      omega

theorem freeSlot_some (p : Part) (x : SlotId) (h : slotState p x = slotFree)
    (hlow : ∀ y : SlotId, y.number < x.number → slotState p y ≠ slotFree) : freeSlot p = some x := by
  have step : ∀ y : SlotId, y.number < x.number → (slotState p y == slotFree) = false :=
    fun y hy => by simpa using hlow y hy
  unfold freeSlot SlotId.all
  cases x
  · simp [h]
  · simp [h, step .s0 (by decide)]
  · simp [h, step .s0 (by decide), step .s1 (by decide)]
  · simp [h, step .s0 (by decide), step .s1 (by decide), step .s2 (by decide)]

theorem freeSlot_none (p : Part) (h : ∀ x, slotState p x ≠ slotFree) : freeSlot p = none := by
  unfold freeSlot
  rw [List.find?_eq_none]
  intro x _
  simpa using h x

theorem slotState_congr (p q : Part)
    (h : ∀ a, Config.slotBase ≤ a → readByte q.exch.mem a = readByte p.exch.mem a) (x : SlotId) :
    slotState q x = slotState p x := by
  have low := slotOffset_low x
  exact readWord_congr _ _ _ (h _ (by unfold Config.slotBase; omega))
    (h _ (by unfold Config.slotBase; omega))

/-- What the record writer does with a trip event (R168 to R172). -/
theorem tripEvent_recorded (c : Cause) (cls : TripClass) (p : Part) (h : Memory.wf p.exch.mem = true) :
    TripRecorded c cls p (tripEvent c cls p) := by
  obtain ⟨hwf, htrip, hset, hrec, hbytes⟩ := trip_steps_keep c cls p h
  set r := ordersAtTrip c (latchCause c cls p) (tripOrder c cls (latchCause c cls p)) with hr
  set header := recordHeader c cls (latchCause c cls p) with hheader
  have hmem : (tripEvent c cls p).exch.mem = (recordTrip c cls header r).exch.mem := rfl
  have htr : (tripEvent c cls p).trip = (recordTrip c cls header r).trip := rfl
  have hra : (tripEvent c cls p).raised .record = (recordTrip c cls header r).raised .record :=
    (raised_raiseSource .trip .record (startOnTrip (recordTrip c cls header r))).trans
      (Bool.or_false _)
  have hfill : r.trip.filling = p.trip.filling := by rw [htrip]; rfl
  have hstate : ∀ x, slotState r x = slotState p x := slotState_congr p r hbytes
  have hfollow : ∀ f, p.trip.filling = some f → recordTrip c cls header r = addFollowOn f c cls r := by
    intro f hf
    unfold recordTrip
    rw [hfill, hf]
  have hopen : p.trip.filling = none → ∀ x, slotState p x = slotFree →
      (∀ y : SlotId, y.number < x.number → slotState p y ≠ slotFree) →
      recordTrip c cls header r = openRecord x header r := by
    intro hf x hx hlow
    unfold recordTrip
    rw [hfill, hf, freeSlot_some r x (by rw [hstate, hx]) (fun y hy => by rw [hstate]; exact hlow y hy)]
  have hnone : p.trip.filling = none → (∀ x, slotState p x ≠ slotFree) →
      recordTrip c cls header r =
        r.setTrip { r.trip with unrecorded := countUp 255 r.trip.unrecorded } := by
    intro hf hx
    unfold recordTrip
    rw [hfill, hf, freeSlot_none r (fun x => by rw [hstate]; exact hx x)]
  have lowest : (∃ x, slotState p x = slotFree) → ∃ x, slotState p x = slotFree ∧
      ∀ y : SlotId, y.number < x.number → slotState p y ≠ slotFree := by
    rintro ⟨x, hx⟩
    by_cases h0 : slotState p .s0 = slotFree
    · exact ⟨.s0, h0, fun y hy => absurd hy (by cases y <;> decide)⟩
    by_cases h1 : slotState p .s1 = slotFree
    · exact ⟨.s1, h1, fun y hy => by cases y <;> first | exact h0 | exact absurd hy (by decide)⟩
    by_cases h2 : slotState p .s2 = slotFree
    · exact ⟨.s2, h2, fun y hy => by
        cases y <;> first | exact h0 | exact h1 | exact absurd hy (by decide)⟩
    refine ⟨.s3, ?_, fun y hy => by
      cases y <;> first | exact h0 | exact h1 | exact h2 | exact absurd hy (by decide)⟩
    cases x <;> first | exact hx | contradiction
  have rings : (tripEvent c cls p).trip.history = p.trip.history ∧
      (tripEvent c cls p).trip.fast = p.trip.fast := by
    rw [htr]
    have e : (recordTrip c cls header r).trip.history = r.trip.history ∧
        (recordTrip c cls header r).trip.fast = r.trip.fast := by
      cases hf : p.trip.filling with
      | some f =>
        rw [hfollow f hf, (addFollowOn_spec f c cls r hwf).2]
        exact ⟨rfl, rfl⟩
      | none =>
        by_cases hx : ∃ x, slotState p x = slotFree
        · obtain ⟨x, h1, h2⟩ := lowest hx
          rw [hopen hf x h1 h2, (openRecord_spec x c cls _ r hwf).2.1]
          exact ⟨rfl, rfl⟩
        · rw [hnone hf (fun x hx' => hx ⟨x, hx'⟩)]
          exact ⟨rfl, rfl⟩
    rw [e.1, e.2, htrip]
    exact ⟨rfl, rfl⟩
  refine ⟨?_, ?_, ?_, ?_, rings⟩
  · intro f hf
    have spec := (addFollowOn_spec f c cls r hwf).1
    rw [← hfollow f hf] at spec
    refine ⟨by rw [htr]; exact spec.filling, fun hl => ?_, fun hl => ?_, ?_⟩
    · obtain ⟨a1, a2, a3⟩ := spec.listed hl
      rw [hmem]
      exact ⟨a1, a2, fun a h1 h2 h3 h4 => (a3 a h1 h2 h3 h4).trans (hbytes a h1)⟩
    · obtain ⟨a1, a2⟩ := spec.more hl
      rw [hmem]
      exact ⟨a1, fun a h1 h2 h3 => (a2 a h1 h2 h3).trans (hbytes a h1)⟩
    · rw [hra, spec.raised, hrec]
  · intro hf x hx hlow
    have e := hopen hf x hx hlow
    have spec := openRecord_spec x c cls (latchCause c cls p) r hwf
    rw [← hheader, ← e] at spec
    have hpre : recordPreTrip r = recordPreTrip p := by
      unfold recordPreTrip
      rw [htrip, hset]
      rfl
    have hfast : r.trip.fast = p.trip.fast := by rw [htrip]; rfl
    rw [hset, hrec, hpre, hfast] at spec
    obtain ⟨s1, _, s2, s3, s4, s5, s6, s7, s8, s9⟩ := spec
    rw [← hmem] at s4 s5 s6 s7 s8 s9
    have two : ∀ a w w', readWord (tripEvent c cls p).exch.mem a = w →
        readWord (tripEvent c cls p).exch.mem (a + 2) = w' →
        readWords (tripEvent c cls p).exch.mem a 2 = [w, w'] := by
      intro a w w' h1 h2
      simp only [readWords, h1, h2]
    have three : ∀ a w w' w'', readWord (tripEvent c cls p).exch.mem a = w →
        readWord (tripEvent c cls p).exch.mem (a + 2) = w' →
        readWord (tripEvent c cls p).exch.mem (a + 4) = w'' →
        readWords (tripEvent c cls p).exch.mem a 3 = [w, w', w''] := by
      intro a w w' w'' h1 h2 h3
      simp only [readWords, h1, h2, Nat.add_assoc, Nat.reduceAdd, h3]
    have field : ∀ (o : Nat) (w : Word), (o, w) ∈ header →
        readWord (tripEvent c cls p).exch.mem (slotOffset x + o) = w := fun o w hk => s4 (o, w) hk
    constructor
    · exact s1
    · rw [htr]; exact s2
    · rw [hra]; exact s3
    · intro f hf
      rcases recordFields_in_header c cls p f hf with ⟨h0, hz⟩ | hin
      · rw [hz]; exact s5 _ h0
      · exact s4 f hin
    · exact two _ _ _ (field _ _ (List.mem_of_getElem? (i := 3) rfl))
        (field _ _ (List.mem_of_getElem? (i := 4) rfl))
    · have hl : (tripEvent c cls p).trip.latched = (latchCause c cls p).trip.latched := by
        rw [tripEvent_latched]; rfl
      rw [hl]
      exact two _ _ _ (field _ _ (List.mem_of_getElem? (i := 9) rfl))
        (field _ _ (List.mem_of_getElem? (i := 10) rfl))
    · rw [← conditionBits_latchCause c cls p]
      exact two _ _ _ (field _ _ (List.mem_of_getElem? (i := 29) rfl))
        (field _ _ (List.mem_of_getElem? (i := 30) rfl))
    · intro g
      have put := groupContext_in_header c cls p g
      simp only [groupContext, List.mem_cons, List.not_mem_nil, or_false] at put
      have a1 := field _ _ (put _ (.inl rfl))
      have a2 := field _ _ (put _ (.inr (.inl rfl)))
      have a3 := field _ _ (put _ (.inr (.inr rfl)))
      simp only [← Nat.add_assoc] at a1 a2 a3
      exact three _ _ _ _ a1 a2 a3
    · intro f hf
      have := field _ _ (recordMotorFields_in_header c cls p .a f hf)
      rwa [← Nat.add_assoc] at this
    · intro f hf
      have := field _ _ (recordMotorFields_in_header c cls p .b f hf)
      rwa [← Nat.add_assoc] at this
    · exact s6
    · exact s7
    · exact s8
    · exact fun hle => (s9 hle).1
    · exact fun hle _ a ha hout => ((s9 hle).2 a hout).trans (hbytes a ha)
  · intro hf hx
    rw [htr, hmem, hra, hnone hf hx]
    refine ⟨by rw [← hf, ← hfill]; rfl, hrec, ?_, hbytes⟩
    show countUp 255 r.trip.unrecorded = _
    rw [htrip]
    rfl
  · intro hcase
    have hun : r.trip.unrecorded = p.trip.unrecorded := by rw [htrip]; rfl
    rw [htr]
    cases hf : p.trip.filling with
    | some f =>
      rw [hfollow f hf, (addFollowOn_spec f c cls r hwf).2]
      exact hun
    | none =>
      obtain ⟨x, h1, h2⟩ := lowest (hcase.resolve_left (fun hne => hne hf))
      rw [hopen hf x h1 h2, (openRecord_spec x c cls _ r hwf).2.1]
      exact hun

theorem finishRun_orders (code : ResultCode) (p : Part) :
    (finishRun code p).orders = { p.orders with run := none } := by
  unfold finishRun
  split
  · rename_i h
    rw [← h]
  · rfl

theorem finishStop_orders (code : ResultCode) (p : Part) :
    (finishStop code p).orders = { p.orders with stop := none } := by
  unfold finishStop
  split
  · rename_i h
    rw [← h]
  · rfl

/-- Whether a trip event aborts the RUN in flight, said as R18 and R113 say it. -/
theorem runAborted_iff (r : RunEntry) (c : Cause) (before after : Part) :
    runAborted r c before after = true ↔
      c.owner = none ∨ (∃ m, c.owner = some m ∧ r.named.get m = true) ∨
      (before.seq.group ≠ .tripped ∧ after.seq.group = .tripped) ∨
      ∃ m, r.joining.get m = true ∧ before.motorState m ≠ .tripped ∧ after.motorState m = .tripped := by
  have motors : (∃ m, r.joining.get m = true ∧ before.motorState m ≠ .tripped ∧
      after.motorState m = .tripped) ↔
      (Motor.all.any (fun m => r.joining.get m &&
        before.motorState m != .tripped && after.motorState m == .tripped)) = true := by
    simp only [List.any_eq_true, Bool.and_eq_true, bne_iff_ne, beq_iff_eq, and_assoc]
    exact ⟨fun ⟨m, h⟩ => ⟨m, by cases m <;> decide, h⟩, fun ⟨m, _, h⟩ => ⟨m, h⟩⟩
  rw [motors]
  unfold runAborted
  cases h : c.owner with
  | none => simp
  | some m => cases m <;> simp [PerMotor.get, or_assoc]

/-- What a trip event makes of the entries of the orders in flight (R18, R19, R113). -/
theorem tripEvent_entries (c : Cause) (cls : TripClass) (p : Part) :
    let q := tripEvent c cls p
    q.orders = { p.orders with stop := none, run := q.orders.run } ∧
    (q.orders.run = none ∨ q.orders.run = p.orders.run) ∧
    ∀ r, p.orders.run = some r → (q.orders.run = none ↔
      c.owner = none ∨ (∃ m, c.owner = some m ∧ r.named.get m = true) ∨
      (p.seq.group ≠ .tripped ∧ q.seq.group = .tripped) ∨
      ∃ m, r.joining.get m = true ∧ p.motorState m ≠ .tripped ∧ q.motorState m = .tripped) := by
  intro q
  have e : q.orders =
      (ordersAtTrip c (latchCause c cls p) (tripOrder c cls (latchCause c cls p))).orders := by
    show (tripEvent c cls p).orders = _
    unfold tripEvent
    simp [startOnTrip]
  have hseq : q.seq = (tripOrder c cls (latchCause c cls p)).seq := tripEvent_seq c cls p
  have hord : (tripOrder c cls (latchCause c cls p)).orders = p.orders := by simp
  have run := finishRun_orders .abortedByTrip
  have stop := finishStop_orders .abortedByTrip
  have aborted : ∀ r, runAborted r c (latchCause c cls p) (tripOrder c cls (latchCause c cls p)) = true ↔
      c.owner = none ∨ (∃ m, c.owner = some m ∧ r.named.get m = true) ∨
      (p.seq.group ≠ .tripped ∧ q.seq.group = .tripped) ∨
      ∃ m, r.joining.get m = true ∧ p.motorState m ≠ .tripped ∧ q.motorState m = .tripped := by
    intro r
    rw [runAborted_iff]
    unfold Part.motorState
    rw [hseq]
    rfl
  rw [e]
  unfold ordersAtTrip
  dsimp only
  rw [stop]
  cases hrun : p.orders.run with
  | none =>
    simp only [hord, hrun]
    simp
  | some r =>
    simp only [hord, hrun]
    split_ifs with hab
    · simp only [run, hord]
      refine ⟨trivial, .inl trivial, fun r' hr => ?_⟩
      cases hr
      exact ⟨fun _ => (aborted r).1 hab, fun _ => trivial⟩
    · simp only [hord, hrun]
      refine ⟨trivial, .inr trivial, fun r' hr => ?_⟩
      cases hr
      exact ⟨fun h => absurd h (by simp), fun h => absurd ((aborted r).2 h) hab⟩

/-! ### The cells of the orders in flight -/

/-- A cell just finished (R13). -/
theorem cellFinished_finishCell (n : CellId) (code : ResultCode) (vs : List Word) (p : Part)
    (h : Memory.wf p.exch.mem = true) : CellFinished n code vs p (finishCell n code vs p) := by
  obtain ⟨_, hs, hc, hv, hd, _⟩ := finishedMemory_spec p.exch.mem n p.acq.frameCount code vs h
  exact ⟨hs, hc, hv, hd⟩

/-- A finished cell stays as it is where none of its answer bytes is stored to. -/
theorem CellFinished.congr {n : CellId} {code : ResultCode} {vs : List Word} {p q r : Part}
    (h : CellFinished n code vs p q)
    (same : ∀ a, cellAnswerByte n a → readByte r.exch.mem a = readByte q.exch.mem a) :
    CellFinished n code vs p r := by
  have bytes : ∀ a, (a = cellOffset n ∨ a = cellOffset n + 1 ∨
      (cellOffset n + 0x06 ≤ a ∧ a < cellOffset n + 0x20)) →
      readByte r.exch.mem a = readByte q.exch.mem a := by
    intro a ha
    refine same a ?_
    unfold cellAnswerByte
    omega
  refine ⟨(readWord_congr _ _ _ (bytes _ (by omega)) (bytes _ (by omega))).trans h.state,
    (readWord_congr _ _ _ (bytes _ (by omega)) (bytes _ (by omega))).trans h.code,
    (readWords_congr _ _ _ _ (fun b h1 h2 => bytes b (by omega))).trans h.values,
    (readWords_congr _ _ _ _ (fun b h1 h2 => bytes b (by omega))).trans h.doneFrame⟩

/-- The bytes of a cell that the finishing of another one leaves. -/
theorem readByte_finishCell_other (n k : CellId) (code : ResultCode) (vs : List Word) (p : Part)
    (h : Memory.wf p.exch.mem = true) (hk : n ≠ k) (a : Nat) (ha : cellAnswerByte n a) :
    readByte (finishCell k code vs p).exch.mem a = readByte p.exch.mem a := by
  obtain ⟨_, _, _, _, _, hother⟩ := finishedMemory_spec p.exch.mem k p.acq.frameCount code vs h
  have := cellOffset_apart n k hk
  unfold cellAnswerByte at ha
  exact hother a (by omega) (by omega) (by omega)

/-- A trip event stores nothing to a cell after its orders in flight are dealt with. -/
theorem tripEvent_cellByte (c : Cause) (cls : TripClass) (p : Part) (h : Memory.wf p.exch.mem = true)
    (n : CellId) (a : Nat) (ha : cellAnswerByte n a) :
    readByte (tripEvent c cls p).exch.mem a =
      readByte (ordersAtTrip c (latchCause c cls p) (tripOrder c cls (latchCause c cls p))).exch.mem a := by
  obtain ⟨hwf, _⟩ := trip_steps_keep c cls p h
  refine ((stores_recordTrip c cls (recordHeader c cls (latchCause c cls p)) _) hwf).2 a ?_
  have := cellOffset_bounds n
  unfold cellAnswerByte at ha
  unfold slotByte Config.slotBase
  omega

/-- What step 5 of R158 stores to the cells of the RUN and of the STOP in flight. -/
theorem ordersAtTrip_cells (c : Cause) (before p : Part) (h : Memory.wf p.exch.mem = true) :
    let q := ordersAtTrip c before p
    (∀ r, p.orders.run = some r → q.orders.run = none → CellFinished r.cell .abortedByTrip [] p q) ∧
    (∀ n, p.orders.stop = some n → CellFinished n .abortedByTrip [] p q) ∧
    (∀ r, q.orders.run = some r → p.orders.stop ≠ some r.cell → ∀ a, cellAnswerByte r.cell a →
      readByte q.exch.mem a = readByte p.exch.mem a) ∧
    ∀ src, q.raised src = (p.raised src || ((p.orders.stop.isSome ||
      (p.orders.run.isSome && q.orders.run.isNone)) && .order == src)) := by
  have closed : ∀ x : Part, Memory.wf x.exch.mem = true → x.acq = p.acq → x.orders.stop = p.orders.stop →
      (∀ n, p.orders.stop = some n → CellFinished n .abortedByTrip [] p (finishStop .abortedByTrip x)) ∧
      (∀ n, p.orders.stop ≠ some n → ∀ a, cellAnswerByte n a →
        readByte (finishStop .abortedByTrip x).exch.mem a = readByte x.exch.mem a) ∧
      (∀ n, CellFinished n .abortedByTrip [] p x →
        CellFinished n .abortedByTrip [] p (finishStop .abortedByTrip x)) := by
    intro x hx hacq hst
    unfold finishStop
    rw [hst]
    cases hs : p.orders.stop with
    | none => exact ⟨fun n hn => (by cases hn), fun _ _ _ _ => rfl, fun _ hf => hf⟩
    | some k =>
      have fin : CellFinished k .abortedByTrip [] p
          (finishCell k .abortedByTrip [] (x.setOrders { x.orders with stop := none })) := by
        have := cellFinished_finishCell k .abortedByTrip [] (x.setOrders { x.orders with stop := none }) hx
        exact ⟨this.state, this.code, this.values, by rw [← hacq]; exact this.doneFrame⟩
      refine ⟨fun n hn => (by cases hn; exact fin), fun n hn a ha => ?_, fun n hf => ?_⟩
      · exact readByte_finishCell_other n k .abortedByTrip [] _ hx (fun e => hn (by rw [e])) a ha
      · by_cases hk : n = k
        · rw [hk]; exact fin
        · exact hf.congr (fun a ha => readByte_finishCell_other n k .abortedByTrip [] _ hx hk a ha)
  intro q
  cases hr : p.orders.run with
  | none =>
    have e : q = finishStop .abortedByTrip p := by
      show ordersAtTrip c before p = _
      unfold ordersAtTrip
      rw [hr]
    obtain ⟨c1, c2, _⟩ := closed p h rfl rfl
    rw [e]
    refine ⟨fun r hr => (by cases hr), c1, fun r _ hs => c2 r.cell hs, fun src => ?_⟩
    rw [raised_finishStop]
    simp
  | some r =>
    by_cases hab : runAborted r c before p = true
    · have e : q = finishStop .abortedByTrip (finishRun .abortedByTrip p) := by
        show ordersAtTrip c before p = _
        unfold ordersAtTrip
        rw [hr]
        simp only [if_pos hab]
      have hwf : Memory.wf (finishRun .abortedByTrip p).exch.mem = true :=
        ((stores_finishRun .abortedByTrip p) h).1
      have hrun : q.orders.run = none := by rw [e, finishStop_orders, finishRun_orders]
      obtain ⟨c1, _, c3⟩ := closed _ hwf (by simp) (finishRun_stop _ _)
      have fin : CellFinished r.cell .abortedByTrip [] p (finishRun .abortedByTrip p) := by
        have fin := cellFinished_finishCell r.cell .abortedByTrip []
          (p.setOrders { p.orders with run := none }) h
        have e : finishRun .abortedByTrip p =
            finishCell r.cell .abortedByTrip [] (p.setOrders { p.orders with run := none }) := by
          unfold finishRun
          rw [hr]
        rw [e]
        exact ⟨fin.state, fin.code, fin.values, fin.doneFrame⟩
      rw [hrun, e]
      refine ⟨fun r' hr' _ => ?_, c1, fun r' hq => (by cases hq), fun src => ?_⟩
      · cases hr'
        exact c3 _ fin
      · rw [raised_finishStop, raised_finishRun, finishRun_stop, hr]
        cases p.raised src <;> cases p.orders.stop.isSome <;> simp
    · have e : q = finishStop .abortedByTrip p := by
        show ordersAtTrip c before p = _
        unfold ordersAtTrip
        rw [hr]
        simp only [if_neg hab]
      have hrun : q.orders.run = some r := by rw [e, finishStop_orders]; exact hr
      obtain ⟨c1, c2, _⟩ := closed p h rfl rfl
      rw [hrun, e]
      refine ⟨fun r' _ hq => (by cases hq), c1, fun r' _ hs => c2 r'.cell hs, fun src => ?_⟩
      rw [raised_finishStop]
      simp

/-- The record writer raises RECORD at most. -/
theorem raised_recordTrip (c : Cause) (cls : TripClass) (header : List (Nat × Word)) (p : Part)
    (src : Source) (h : src ≠ .record) : (recordTrip c cls header p).raised src = p.raised src := by
  have close : ∀ x : Part, (recordClose x).raised src = x.raised src := by
    intro x
    unfold recordClose
    split
    · rfl
    · rw [raised_raiseSource]
      have : (Source.record == src) = false := by simpa using fun e => h e.symm
      rw [this, Bool.or_false]
      rfl
  unfold recordTrip
  split
  · unfold addFollowOn
    dsimp only
    split <;> rfl
  · split
    · unfold openRecord
      dsimp only
      split
      · rw [close]; rfl
      · rfl
    · rfl

/-- What a trip event makes of the orders in flight (R158, step 5). -/
theorem tripEvent_orders (c : Cause) (cls : TripClass) (p : Part) (h : Memory.wf p.exch.mem = true) :
    OrdersAtTrip c p (tripEvent c cls p) := by
  obtain ⟨e1, e2, e3⟩ := tripEvent_entries c cls p
  have hmem : (tripOrder c cls (latchCause c cls p)).exch.mem = p.exch.mem := by simp
  have hord : (tripOrder c cls (latchCause c cls p)).orders = p.orders := by simp
  have hacq : (tripOrder c cls (latchCause c cls p)).acq = p.acq := by simp
  have hraised : ∀ src, (tripOrder c cls (latchCause c cls p)).raised src = p.raised src := by
    intro src; unfold Part.raised; simp
  have hrun : (tripEvent c cls p).orders =
      (ordersAtTrip c (latchCause c cls p) (tripOrder c cls (latchCause c cls p))).orders := by
    unfold tripEvent
    simp [startOnTrip]
  obtain ⟨c1, c2, c3, c4⟩ := ordersAtTrip_cells c (latchCause c cls p)
    (tripOrder c cls (latchCause c cls p)) (hmem ▸ h)
  rw [hord] at c1 c2 c3 c4
  rw [← hrun] at c1 c3 c4
  have lift : ∀ {n q}, CellFinished n .abortedByTrip [] (tripOrder c cls (latchCause c cls p)) q →
      CellFinished n .abortedByTrip [] p q := fun x =>
    ⟨x.state, x.code, x.values, by rw [← hacq]; exact x.doneFrame⟩
  refine ⟨e1, e2, e3, fun r hr hq => ?_, fun n hn => ?_, fun r hq hs a ha => ?_, ?_⟩
  · exact (lift (c1 r hr hq)).congr (tripEvent_cellByte c cls p h r.cell)
  · exact (lift (c2 n hn)).congr (tripEvent_cellByte c cls p h n)
  · rw [tripEvent_cellByte c cls p h r.cell a ha, c3 r hq hs a ha, hmem]
  · have := raised_raiseSource .trip .order (startOnTrip (recordTrip c cls
      (recordHeader c cls (latchCause c cls p))
      (ordersAtTrip c (latchCause c cls p) (tripOrder c cls (latchCause c cls p)))))
    refine this.trans ?_
    have e : ∀ x : Part, (startOnTrip x).raised .order = x.raised .order := fun _ => rfl
    have t : (Source.trip == Source.order) = false := by decide
    have o : (Source.order == Source.order) = true := by decide
    rw [e, raised_recordTrip _ _ _ _ _ (by decide), c4, hraised, t, o]
    simp [Bool.or_assoc]

/-- The attention sources that a trip event leaves as they were. -/
theorem tripEvent_attention (c : Cause) (cls : TripClass) (p : Part) (h : Memory.wf p.exch.mem = true) :
    (tripEvent c cls p).attn.routing = p.attn.routing ∧
    ∀ src, src ≠ .trip → src ≠ .order → src ≠ .record →
      (tripEvent c cls p).raised src = p.raised src := by
  refine ⟨by simp, fun src h1 h2 h3 => ?_⟩
  have hmem : (tripOrder c cls (latchCause c cls p)).exch.mem = p.exch.mem := by simp
  obtain ⟨_, _, _, c4⟩ := ordersAtTrip_cells c (latchCause c cls p)
    (tripOrder c cls (latchCause c cls p)) (hmem ▸ h)
  have hraised : (tripOrder c cls (latchCause c cls p)).raised src = p.raised src := by
    unfold Part.raised; simp
  refine (raised_raiseSource .trip src _).trans ?_
  have e : ∀ x : Part, (startOnTrip x).raised src = x.raised src := fun _ => rfl
  have t : (Source.trip == src) = false := by simpa using fun e => h1 e.symm
  have o : (Source.order == src) = false := by simpa using fun e => h2 e.symm
  rw [t, Bool.or_false, e, raised_recordTrip _ _ _ _ _ h3, c4, o, hraised, Bool.and_false, Bool.or_false]

/-- What a trip event does, said once (R158). -/
theorem tripEvent_taken (c : Cause) (cls : TripClass) (p : Part) (h : Memory.wf p.exch.mem = true) :
    TripTaken c cls p (tripEvent c cls p) where
  latched := tripEvent_latched c cls p
  sequence := tripEvent_sequence c cls p
  raised := by
    show (raiseSource .trip _).attn.pending.getLsbD Source.trip.number = true
    rw [raiseSource_pending]
    simp
  engines := by
    intro e h1 h2
    rw [tripEvent_cap]
    simp [startOnTrip, h1, h2]
  otherEngines := by
    intro e he
    rw [tripEvent_cap]
    simp only [startOnTrip, Part.setCap_cap, PerEngine.get_map, if_neg he]
  stores := ⟨((stores_tripEvent c cls p) h).2, by simp, by simp⟩
  recorded := tripEvent_recorded c cls p h
  orders := tripEvent_orders c cls p h
  attention := tripEvent_attention c cls p h
  keeps := by
    intro b hb
    cases b <;> first | exact absurd (by decide) hb | simp [Part.agree]

/-! ## The sequencer's orders and reports -/

/-- An INHIBIT_ONE order looks at the sequencer, the settings and the torque references alone (R108). -/
theorem inhibitOneOrder_seq_congr (m : Motor) (p q : Part) (hseq : q.seq = p.seq)
    (hset : q.orders.settings = p.orders.settings) (hallot : q.allot = p.allot) :
    (inhibitOneOrder m q).seq = (inhibitOneOrder m p).seq := by
  unfold inhibitOneOrder carriesOn Part.motorState Part.settings
  rw [hseq, hset, hallot]
  split_ifs <;> first | rfl | exact hseq

/-- Step 4 of R158 for each class. -/
theorem tripEvent_seq_inhibitAll (c : Cause) (p : Part) :
    (tripEvent c .inhibitAll p).seq = (inhibitAllOrder p).seq := by
  rw [tripEvent_seq]; rfl

theorem tripEvent_seq_rampAll (c : Cause) (p : Part) :
    (tripEvent c .rampAll p).seq = (rampAllOrder p).seq := by
  rw [tripEvent_seq]; rfl

theorem tripEvent_seq_inhibitOne (c : Cause) (m : Motor) (p : Part) (h : c.owner = some m) :
    (tripEvent c .inhibitOne p).seq = (inhibitOneOrder m p).seq := by
  rw [tripEvent_seq]
  unfold tripOrder
  simp only [h]
  exact inhibitOneOrder_seq_congr m _ _ rfl rfl rfl

/-- A report of a cause that is latched does nothing; any other is a trip event (R155). -/
theorem report_of_latched (c : Cause) (p : Part) (h : isLatched p.trip.latched c = true) :
    report c p = p := if_pos h

theorem report_of_new (c : Cause) (p : Part) (h : isLatched p.trip.latched c = false) :
    report c p = tripEvent c (p.settings.classOf c) p := if_neg (by simp [h])

end Sys2Proof.Machine
end

