-- ==== Sys2Proof/Tests/Slice0.lean ====
section
/-! SUPPORT. Tests: the refusals of WellFormed, the worked examples of the spec, and for every statement that
has hypotheses a state that meets them. Expected values come from the spec's examples and tables. -/

set_option Elab.async false

namespace Sys2Proof.Tests

open Sys2Proof Sys2Proof.Machine

/-! ## WellFormed -/

theorem test_wellFormed_refuses_block_twice :
    (Instr.supervisionFrame [.acquisition, .live, .acquisition]).wellFormed = false := by decide
theorem test_wellFormed_refuses_receiver_twice :
    (Instr.scanComplete [.capture, .capture]).wellFormed = false := by decide
theorem test_wellFormed_refuses_empty_reply : (Instr.replyReceived .a []).wellFormed = false := by decide
theorem test_wellFormed_accepts :
    (Instr.supervisionFrame [.orders, .live]).wellFormed = true ∧
    (Instr.scanComplete []).wellFormed = true ∧
    (Instr.replyReceived .b [0#16]).wellFormed = true := by decide

/-! ## Arithmetic and the worked examples -/

/-- Spec 00: exact halves toward +∞. -/
theorem test_roundedShift_halves :
    roundedShift 1 3 = 2 ∧ roundedShift 1 (-3) = -1 ∧ roundedShift 4 (-9) = -1 ∧
    roundedShift 4 (-8) = 0 := by decide +kernel

/-- R84: the register of the generator 0x1021 from 0xFFFF over the eight characters 1 to 8. -/
theorem test_checkWord : checkWord [0x3132#16, 0x3334#16, 0x3536#16, 0x3738#16] = 0xA12B#16 := by
  decide +kernel

/-- R71 at 45 and 135 degrees, and at the axes. -/
theorem test_sine :
    sine 128 = 23170 ∧ sine 384 = 23170 ∧ sine 0 = 0 ∧ sine 256 = 32767 ∧ sine 768 = -32767 := by
  decide +kernel

/-- Spec 04, the worked control period: the transforms. -/
theorem test_transforms :
    clarke 2000 9000 = (2000, 11547) ∧ park 2000 11547 23170 23170 = (9579, 6751) ∧
    inversePark 1639 29444 23170 23170 = (-19661, 21979) := by decide +kernel

/-- Spec 04, the worked control period: the regulator and the voltage limit. -/
theorem test_regulate :
    regulate { idRef := 9830, iqRef := 7000, id := 9579, iq := 6751, speed := 3277, udc := 32767
               kp := 2048, ki := 3277, vlim := 29491, kemf := 20480 } 1500 14000 =
      { vd := 1639, vq := 29444, integD := 1513, integQ := 14000, limited := 2 } := by decide +kernel

/-- Spec 06, the worked reference ramp, from (1500, 0) toward 2000 at 300. -/
theorem test_referenceStep :
    let start := { Sequencer.atReset with rising := true }
    referenceStep { start with reference := 1500, remainder := 900 } 2000 300 300 = (1501, 200, true) ∧
    referenceStep { start with reference := 1501, remainder := 800 } 2000 300 300 = (1502, 100, true) :=
  by decide +kernel

/-- Spec 06, the worked frame of the speed loop, and the same frame group-limited. -/
theorem test_speedLoop :
    let settings := { Settings.resetCopy with kps := 20480, kis := 32768, capMotoring := 8192 }
    let part := (Part.reset.setOrders { Part.reset.orders with settings }).setAcq
      { Part.reset.acq with driveSpeed := 2060 }
    let p := part.setSeq { part.seq with
      group := .running, setpoint := 2100, reference := 2100, integrator := 6780 }
    ((speedLoop p).seq.integrator, (speedLoop p).seq.demand) = (6800, 7000) ∧
    (let q := speedLoop (p.setAllot { p.allot with groupLimited := 1 })
     (q.seq.integrator, q.seq.demand) = (6780, 6980)) := by decide +kernel

/-- Spec 07, the worked allotment: the division, without and with motor B limited. -/
theorem test_divideDemand :
    divideDemand 7000 128 2458 6144 = { a := 2458, b := 4542, remainder := 0 } ∧
    divideDemand 7000 128 2458 1536 = { a := 2458, b := 1536, remainder := 3006 } := by decide +kernel

/-- Spec 07, the worked allotment: candidates, references and estimate. -/
theorem test_allotment_stages :
    let st := { Settings.resetCopy with thermalStart := 20000, thermalTrip := 24000 }
    let ra := { Ratings.resetCopy with kti := 11000, kit := 1525, iqLimit := 16000 }
    (vibrationCandidate 13107 6144).map Candidate.value = [2458] ∧
    (thermalCandidate st 23000 6144).map Candidate.value = [1536] ∧
    iqReference ra 2458 = 6601 ∧ iqReference ra 4542 = 12198 ∧ torqueEstimate ra 6500 = 2420 := by
  decide +kernel

/-- Spec 07, the worked heating. -/
theorem test_thermal :
    heatingInput .running 18000 0 12000 = 36864 ∧ thermalStep 1048576000 36864 20 = 1048577304 := by
  decide +kernel

/-- Spec 08, the two worked samples: a valid one and a late one. -/
theorem test_filter :
    let c := { Channel.cleared .normal with xPrev := 1200, yPrev := -400 }
    let one := c.filter 31130 { value := 1500, mark := .valid }
    let two := one.filter 31130 { value := 0, mark := .invalidLate }
    (one.xPrev, one.yPrev) = (1500, -80) ∧ (two.xPrev, two.yPrev) = (1500, -76) := by decide +kernel

/-- Spec 08, the worked bearing window: level 10240 in band 5 takes ALERT to DANGER. -/
theorem test_windowEnded :
    let st := { Settings.resetCopy with
      windowCode := 9, edges := [256, 512, 1024, 1536, 2048, 2560, 3072]
      alertPersistence := 2, dangerPersistence := 3
      groups := PerGroup.ofFun (fun _ => { GroupParams.zero with margin := 1000 })
      thresholds := List.replicate 8 (PerGroup.ofFun (fun _ => { alert := 6000, danger := 9000 })) }
    let c := { Channel.cleared .alert with accumulator := 53687091200, alertRun := 5, dangerRun := 2 }
    let w := c.windowEnded st .tyre 2051
    speedBand st.edges 2051 = 5 ∧ isqrt 104857600 = 10240 ∧
    (w.level, w.alertRun, w.dangerRun, w.state) = (10240, 6, 3, .danger) := by decide +kernel

/-- Spec 03, the worked frame of speed. -/
theorem test_speed_frame :
    let e := { Encoder.atReset false false false with counter := 2163#32 }
    let f := { Encoder.atReset false false false with counter := 2170#32 }
    ((e.frame 62061 false).speed, (f.frame 62061 false).speed) = (2048, 2055) ∧
    formDriveSpeed (e.frame 62061 false) (f.frame 62061 false) false false 0 = (2051, false) := by
  decide +kernel


/-! ## States for the witnesses -/

/-- A part with one piece of work due. -/
def due (p : Part) (w : Work) : State := { pending := [], agenda := [w], part := p }

/-- A part with the arguments of cell 0 posted. -/
def withArgs (p : Part) (args : List Word) : Part :=
  p.setMem (writeWords p.exch.mem (cellOffset 0 + 0x20) args)

/-- An order of the kind in cell 0, due with the arguments given. -/
def order (kind : OrderKind) (p : Part) (args : List Word) : State :=
  due (withArgs p args) (.order kind 0)

/-- The part after a command. -/
def partAfter (c : Instr) (s : State) : Part :=
  match exec c s with
  | .next t => t.part
  | .fault _ => s.part
  | .refused _ => s.part

/-- The answer words of cell `n`: state, result code and the eight values. -/
def answerOf (n : CellId) (p : Part) : Word × Word × List Word :=
  (cellState p n, readWord p.exch.mem (cellOffset n + 0x0E), readWords p.exch.mem (cellOffset n + 0x10) 8)

/-- The answer words of a finished cell. -/
def answered (code : ResultCode) (values : List Word) : Word × Word × List Word :=
  (code.state, wordOfNat code.code, resultValues values)

/-- Settings and ratings applied, both links UP, nothing running. -/
def idlePart : Part :=
  (Part.reset.setOrders { Part.reset.orders with settingsApplied := true, ratingsApplied := true }).setLinks
    (PerMotor.both (Link.atReset .up))

/-- The order unit of a part with fields changed. -/
def mapOrders (f : OrderUnit → OrderUnit) (p : Part) : Part := p.setOrders (f p.orders)

/-- The sequencer of a part in a group state with both motors in a state. -/
def inGroup (g : GroupState) (m : MotorState) (p : Part) : Part :=
  p.setSeq { p.seq with
    group := g, motor := PerMotor.both { state := m, stepCount := 0, idRef := 0, ramp := 0, ramping := false } }

/-- Causes latched in a part. -/
def latching (ls : List Latched) (p : Part) : Part := p.setTrip { p.trip with latched := ls }

/-- A RUN in flight in cell 1 that is bringing both motors in. -/
def runEntry : RunEntry := { cell := 1, named := PerMotor.both true, joining := PerMotor.both true }

/-- A RUN in flight. -/
def running (p : Part) : Part := mapOrders (fun o => { o with run := some runEntry }) p

/-- An engine in a state, with the capture of cell 2 attached, from 0x4000 for one block. -/
def engineIn (e : EngineId) (state : EngineState) (start : StartCondition) (p : Part) : Part :=
  (p.setCap (p.cap.set e { Engine.atReset with
    state, start, base := 0x4000, requested := 1, remaining := 1 })).setOrders
    { p.orders with capture := p.orders.capture.set e (some 2) }

/-! ## Orders: for each clause a state that meets its premises, with the answer of the spec's tables -/

/-- Kind words at the ends of the ranges (R15). -/
theorem test_witness_UnknownKindRefused :
    orderKind 0#16 = .unknown ∧ orderKind 15#16 = .unknown ∧ orderKind 14#16 = .linkReset ∧
    orderKind 1#16 = .applySettings ∧
    (let s := order .unknown Part.reset []
     s.agenda = .order .unknown 0 :: [] ∧ Memory.wf s.part.exch.mem = true ∧
     answerOf 0 (partAfter (.unknownKind 0) s) = answered .unknownKind []) := by decide +kernel

/-- Page A of fields at the ends of their ranges where 0 would be refused: thermal shift, thermal trip level,
window code and the band edges; eleven fields below their range are clamped, VLIM the first (R30). -/
def goodPage (p : Part) : Part :=
  p.setMem (writeFields p.exch.mem Config.pageA
    ([(0x32, 16#16), (0x36, 1#16), (0x3A, 9#16), (0x00, 77#16)] ++
      (List.range 7).map (fun i => (0x50 + 2 * i, wordOfNat i))))

theorem test_witness_ApplySettingsOrder :
    let run := fun (p : Part) (arg : Word) =>
      answerOf 0 (partAfter (.applySettings 0) (order .applySettings p [arg]))
    let testing := mapOrders (fun o => { o with selftest := some 3 }) Part.reset
    let s := order .applySettings (goodPage Part.reset) [1#16]
    (s.agenda = .order .applySettings 0 :: [] ∧ Memory.wf s.part.exch.mem = true) ∧
    pageArgument 0#16 = none ∧ run Part.reset 0#16 = answered .badArgument [] ∧
    pageArgument 3#16 = none ∧ run Part.reset 3#16 = answered .badArgument [] ∧
    testing.orders.selftest.isSome = true ∧ run testing 2#16 = answered .busy [] ∧
    run Part.reset 1#16 = answered .badSettings [0x32#16] ∧
    run (goodPage Part.reset) 1#16 = answered .appliedWithClamps [11#16, 6#16, 77#16, 1#16] := by
  decide +kernel

/-- What the table of spec 02 says of a page of zeros (R30): the first words clamped, those refused, and a value
at and beyond each end of the flux current reference. -/
theorem test_witness_ApplySettingsOrder_page :
    let zeros := List.replicate 147 0#16
    let v := validatePage zeros
    let flux := fun w : Word => copyWord (validatePage (zeros.set 5 w)).copy 0x00A
    zeros.length = 147 ∧ v.copy.length = 147 ∧ v.clamps.take 4 = [0x006, 0x00A, 0x00C, 0x014] ∧
    (v.fails.contains 0x032 && v.fails.contains 0x036 && v.fails.contains 0x03A) = true ∧
    v.fails.contains 0x030 = false ∧
    (flux 1023#16, flux 1024#16, flux 24576#16, flux 24577#16) =
      (1024#16, 1024#16, 24576#16, 24576#16) := by decide +kernel

/-- Spec 02: the relation of the gear trip level to the motoring gear cap, charged to the higher offset. -/
theorem test_gear_relation :
    let p := goodPage Part.reset
    let q := p.setMem (writeFields p.exch.mem Config.pageA [(0x2A, 8192#16), (0x2E, 6000#16)])
    answerOf 0 (partAfter (.applySettings 0) (order .applySettings q [1#16])) =
      answered .badSettings [0x2E#16] := by decide +kernel

theorem test_witness_ApplyRatingsOrder :
    let run := fun p : Part => answerOf 0 (partAfter (.applyRatings 0) (order .applyRatings p []))
    let good := Part.reset.setMem
      (writeWords Part.reset.exch.mem 0x3000 [1#16, 1#16, 2#16, 0#16, 0#16, 0#16, 256#16, 0#16, 0#16])
    let s := order .applyRatings good []
    (s.agenda = .order .applyRatings 0 :: [] ∧ Memory.wf s.part.exch.mem = true) ∧
    run (inGroup .starting .running good) = answered .notIdle [] ∧
    run (running good) = answered .notIdle [] ∧
    run Part.reset = answered .badSettings [0#16] ∧
    run good = answered .appliedWithClamps [1#16, 4#16] := by decide +kernel

/-- IQLIM at and above the overcurrent threshold (R44). -/
theorem test_witness_ApplyRatingsOrder_clamp :
    let ws := fun iqLimit : Word => [1#16, 9#16, iqLimit, 0#16, 0#16, 0#16, 256#16, 0#16, 0#16]
    (ws 9#16).length = 9 ∧ copyInt (ws 10#16) 0x002 < copyInt (ws 10#16) 0x004 ∧
    ¬ copyInt (ws 9#16) 0x002 < copyInt (ws 9#16) 0x004 ∧
    (validateRatings (ws 10#16)).clamps = [4] ∧ (validateRatings (ws 10#16)).copy = ws 9#16 ∧
    (validateRatings (ws 9#16)).copy = ws 9#16 := by decide +kernel

/-- Every check of R18, in its order, and both ways of acceptance. -/
theorem test_witness_RunOrder :
    let after := fun (p : Part) (arg : Word) => partAfter (.run 0) (order .run p [arg])
    let run := fun (p : Part) (arg : Word) => answerOf 0 (after p arg)
    let s := order .run idlePart [3#16]
    (s.agenda = .order .run 0 :: [] ∧ Memory.wf s.part.exch.mem = true) ∧
    run idlePart 0#16 = answered .badArgument [] ∧ run idlePart 4#16 = answered .badArgument [] ∧
    run (running idlePart) 3#16 = answered .busy [] ∧
    run (mapOrders (fun o => { o with settingsApplied := false }) idlePart) 3#16 =
      answered .noSettings [] ∧
    run (mapOrders (fun o => { o with ratingsApplied := false }) idlePart) 3#16 =
      answered .noRatings [] ∧
    run (latching [{ cause := .halt, cls := .rampAll }] idlePart) 1#16 = answered .tripLatched [] ∧
    run (latching [{ cause := .thermal .b, cls := .rampAll }] idlePart) 2#16 =
      answered .tripLatched [] ∧
    run (inGroup .stopping .stopping idlePart) 3#16 = answered .notIdle [] ∧
    run (inGroup .idle .out idlePart) 3#16 = answered .motorOut [] ∧
    run (idlePart.setLinks (PerMotor.both (Link.atReset .syncing))) 3#16 = answered .linkNotUp [] := by
  decide +kernel

theorem test_witness_RunOrder_later_checks_and_acceptance :
    let after := fun (p : Part) (arg : Word) => partAfter (.run 0) (order .run p [arg])
    let run := fun (p : Part) (arg : Word) => answerOf 0 (after p arg)
    run idlePart 1#16 = answered .badArgument [] ∧
    run (inGroup .idle .tripped idlePart) 3#16 = answered .notIdle [] ∧
    run (inGroup .running .stopping idlePart) 3#16 = answered .notIdle [] ∧
    run (inGroup .running .running idlePart) 3#16 = answered .already [] ∧
    cellState (after idlePart 3#16) 0 = cellTaken ∧
    (after idlePart 3#16).motorState .a = .magnetizing ∧
    cellState (after (inGroup .running .stopped idlePart) 2#16) 0 = cellTaken ∧
    (after (inGroup .running .stopped idlePart) 2#16).motorState .a = .stopped := by decide +kernel

theorem test_witness_StopOrder :
    let after := fun p : Part => partAfter (.stop 0) (order .stop p [])
    let s := order .stop idlePart []
    (s.agenda = .order .stop 0 :: [] ∧ Memory.wf s.part.exch.mem = true) ∧
    runEntry.cell ≠ 0 ∧
    answerOf 0 (after idlePart) = answered .already [] ∧
    answerOf 0 (after (inGroup .tripped .tripped idlePart)) = answered .already [] ∧
    (let q := after (running (inGroup .starting .magnetizing idlePart))
     (cellState q 0, q.seq.group, q.motorState .a) = (cellTaken, .stopping, .stopped) ∧
     answerOf 1 q = answered .superseded []) ∧
    (let q := after (running (inGroup .stopping .stopping idlePart))
     (cellState q 0, q.orders.stop) = (cellTaken, some 0) ∧ answerOf 1 q = answered .superseded []) ∧
    (let q := after (running (inGroup .idle .magnetizing idlePart))
     answerOf 0 q = answered .ok [] ∧ answerOf 1 q = answered .superseded []) := by decide +kernel

theorem test_witness_HaltOrder :
    let after := fun (p : Part) (arg : Word) => partAfter (.halt 0) (order .halt p [arg])
    let halted := fun cls => latching [{ cause := .halt, cls }] idlePart
    let s := order .halt (running (inGroup .running .running idlePart)) [1#16]
    (s.agenda = .order .halt 0 :: [] ∧ Memory.wf s.part.exch.mem = true) ∧
    runEntry.cell ≠ 0 ∧ s.part.orders.stop ≠ some runEntry.cell ∧
    latchedClass s.part.trip.latched .halt = none ∧
    haltMethod 0#16 = none ∧ haltMethod 3#16 = none ∧
    answerOf 0 (after idlePart 0#16) = answered .badArgument [] ∧
    answerOf 0 (after idlePart 3#16) = answered .badArgument [] ∧
    (let q := after (running (inGroup .running .running idlePart)) 1#16
     answerOf 0 q = answered .ok [1#16] ∧ answerOf 1 q = answered .superseded [] ∧
     (q.seq.group, q.trip.sequence) = (.tripped, 1#16) ∧ q.raised .link = false ∧ q.attn.routing = 0#16) ∧
    answerOf 0 (after idlePart 2#16) = answered .ok [2#16] ∧
    (slotState idlePart .s0 = slotFree ∧ slotState (after idlePart 2#16) .s0 = slotReady ∧
      readWords (after idlePart 2#16).exch.mem 0x10002 3 = [1#16, 21#16, 2#16]) ∧
    answerOf 0 (after (halted .rampAll) 1#16) = answered .ok [1#16] ∧
    answerOf 0 (after (halted .rampAll) 2#16) = answered .already [2#16] ∧
    answerOf 0 (after (halted .inhibitAll) 2#16) = answered .already [1#16] := by decide +kernel

/-- Arguments at the ends of the range 0 to the maximum speed, and beyond both. -/
theorem test_witness_SetSpeedOrder :
    let after := fun (p : Part) (arg : Word) => answerOf 0 (partAfter (.setSpeed 0) (order .setSpeed p [arg]))
    let s := order .setSpeed idlePart [0xFFFF#16]
    (s.agenda = .order .setSpeed 0 :: [] ∧ Memory.wf s.part.exch.mem = true) ∧
    after Part.reset 5#16 = answered .noSettings [] ∧
    after idlePart 0xFFFF#16 = answered .clamped [0#16] ∧ after idlePart 0#16 = answered .ok [0#16] ∧
    after idlePart 8192#16 = answered .ok [8192#16] ∧
    after idlePart 8193#16 = answered .clamped [8192#16] := by decide +kernel

/-- Spec 09, the worked clearing: of bits 10 and 20 in scope both stay while their conditions stand. -/
theorem test_witness_ClearTripOrder :
    let ls : List Latched := [{ cause := .overcurrent .a, cls := .inhibitOne },
      { cause := .thermal .a, cls := .rampAll }, { cause := .external, cls := .inhibitAll }]
    let hot := { LimitRecord.atReset (65535 * 65536) with torqueRef := 0 }
    let p := latching ls idlePart
    let present := (p.setPins { p.pins with tripIn := true }).setAllot
      { p.allot with motor := p.allot.motor.set .a hot }
    let after := fun (p : Part) (arg : Word) => partAfter (.clearTrip 0) (order .clearTrip p [arg])
    let s := order .clearTrip present [4#16]
    (s.agenda = .order .clearTrip 0 :: [] ∧ Memory.wf s.part.exch.mem = true) ∧
    clearScope 0#16 = none ∧ clearScope 5#16 = none ∧
    answerOf 0 (after p 5#16) = answered .badArgument [] ∧
    answerOf 0 (after present 4#16) = answered .stillPresent [0x0400#16, 0x0010#16] ∧
    answerOf 0 (after p 4#16) = answered .ok [] ∧
    (after p 1#16).trip.latched = [{ cause := .external, cls := .inhibitAll }] ∧
    (after p 2#16).trip.latched = ls ∧ (after p 3#16).trip.latched = ls.take 2 := by decide +kernel

theorem test_witness_MotorOutAndInOrders_out :
    let after := fun (p : Part) (arg : Word) => partAfter (.motorOut 0) (order .motorOut p [arg])
    let s := order .motorOut idlePart [1#16]
    (s.agenda = .order .motorOut 0 :: [] ∧ Memory.wf s.part.exch.mem = true) ∧
    motorArgument 0#16 = none ∧ motorArgument 3#16 = none ∧
    answerOf 0 (after idlePart 3#16) = answered .badArgument [] ∧
    answerOf 0 (after (inGroup .idle .out idlePart) 1#16) = answered .already [] ∧
    answerOf 0 (after (inGroup .running .stopped idlePart) 1#16) = answered .notIdle [] ∧
    answerOf 0 (after (inGroup .idle .magnetizing idlePart) 1#16) = answered .notIdle [] ∧
    answerOf 0 (after (inGroup .tripped .tripped idlePart) 2#16) = answered .ok [] ∧
    (after (inGroup .tripped .tripped idlePart) 2#16).motorState .b = .out := by decide +kernel

theorem test_witness_MotorOutAndInOrders_in :
    let after := fun (p : Part) (arg : Word) => partAfter (.motorIn 0) (order .motorIn p [arg])
    let out := inGroup .idle .out idlePart
    let s := order .motorIn out [1#16]
    (s.agenda = .order .motorIn 0 :: [] ∧ Memory.wf s.part.exch.mem = true) ∧
    answerOf 0 (after out 0#16) = answered .badArgument [] ∧
    answerOf 0 (after idlePart 1#16) = answered .already [] ∧
    answerOf 0 (after (inGroup .running .out idlePart) 1#16) = answered .notIdle [] ∧
    answerOf 0 (after (latching [{ cause := .linkLost .a, cls := .inhibitOne }] out) 1#16) =
      answered .tripLatched [] ∧
    answerOf 0 (after (latching [{ cause := .linkLost .a, cls := .inhibitOne }] out) 2#16) =
      answered .ok [] ∧
    (after out 1#16).motorState .a = .stopped := by decide +kernel

/-- A motor that leaves OUT in the order scan that took it OUT starts counting from 0 (R55, R67). -/
theorem test_motor_out_clears_runs :
    let enc := idlePart.acq.enc.modify .a (fun e => { e with invalidRun := 5 })
    let p := (idlePart.setAcq { idlePart.acq with enc }).setCtl
      (PerMotor.both { Control.atReset with runA := 3, runB := 2 })
    let out := partAfter (.motorOut 0) (order .motorOut p [1#16])
    let back := partAfter (.motorIn 0) (order .motorIn out [1#16])
    (back.motorState .a, (back.acq.enc.get .a).invalidRun) = (.stopped, 0) ∧
    ((back.ctl.get .a).runA, (back.ctl.get .a).runB, (back.ctl.get .b).runA) = (0, 0, 3) := by
  decide +kernel

/-- The arguments of a capture at the ends of every range (R24). -/
theorem test_witness_CaptureOrder :
    let args := fun engine channel blocks base start : Word =>
      [engine, channel, blocks, base, 0#16, 0xFFFF#16, 0#16, start]
    let after := fun (p : Part) (ws : List Word) => partAfter (.capture 0) (order .capture p ws)
    let run := fun (p : Part) (ws : List Word) => answerOf 0 (after p ws)
    let s := order .capture idlePart (args 0#16 0#16 1#16 0x4000#16 1#16)
    (s.agenda = .order .capture 0 :: [] ∧ Memory.wf s.part.exch.mem = true) ∧
    run idlePart (args 2#16 0#16 1#16 0x4000#16 1#16) = answered .badArgument [] ∧
    run idlePart (args 0#16 14#16 1#16 0x4000#16 1#16) = answered .badArgument [] ∧
    run idlePart (args 0#16 0#16 0#16 0x4000#16 1#16) = answered .badArgument [] ∧
    run idlePart (args 0#16 0#16 97#16 0x4000#16 1#16) = answered .badArgument [] ∧
    run idlePart (args 0#16 0#16 1#16 0x4000#16 0#16) = answered .badArgument [] ∧
    run idlePart (args 0#16 0#16 1#16 0x4000#16 4#16) = answered .badArgument [] ∧
    run (engineIn .e0 .armed .onTrip idlePart) (args 0#16 0#16 1#16 0x4000#16 1#16) =
      answered .busy [] ∧
    run idlePart (args 0#16 0#16 1#16 0x3E00#16 1#16) = answered .badRegion [] ∧
    run idlePart (args 0#16 0#16 2#16 0xFE00#16 1#16) = answered .badRegion [] ∧
    run (engineIn .e0 .armed .onTrip idlePart) (args 1#16 0#16 1#16 0x4000#16 1#16) =
      answered .overlap [] ∧
    run idlePart (args 0#16 0#16 1#16 0x4000#16 3#16) = answered .nothingToFollow [] ∧
    (let q := after idlePart (args 0#16 13#16 96#16 0x4000#16 1#16)
     cellState q 0 = cellTaken ∧ q.cap.e0.state = .running) ∧
    (let q := after (engineIn .e0 .armed .onTrip idlePart) (args 1#16 0#16 1#16 0xFE00#16 3#16)
     cellState q 0 = cellTaken ∧ q.cap.e1.state = .armed) := by decide +kernel

/-- Spec 10, the worked cancelled capture: its result values. -/
theorem test_witness_CaptureCancelOrder :
    let p := engineIn .e0 .running .immediate idlePart
    let p := p.setCap (p.cap.set .e0 { p.cap.e0 with
      written := 2, rangeCount := 1, lateCount := 1
      firstInvalid := some { index := 300, mark := .invalidLate }, firstTime := some (5000#32, 1) })
    let after := fun (p : Part) (arg : Word) => partAfter (.captureCancel 0) (order .captureCancel p [arg])
    let s := order .captureCancel p [0#16]
    (s.agenda = .order .captureCancel 0 :: [] ∧ Memory.wf s.part.exch.mem = true) ∧
    engineArgument 0#16 = some .e0 ∧ engineArgument 1#16 = some .e1 ∧ engineArgument 2#16 = none ∧
    answerOf 0 (after p 2#16) = answered .badArgument [] ∧
    answerOf 0 (after p 1#16) = answered .already [] ∧
    s.part.orders.capture.get .e0 = some 2 ∧ s.part.orders.capture.get .e1 ≠ some 2 ∧
    answerOf 0 (after p 0#16) = answered .ok [2#16] ∧
    answerOf 2 (after p 0#16) =
      answered .cancelled [2#16, 1#16, 1#16, 300#16, 2#16, 5000#16, 0#16, 1#16] ∧
    (let q := p.setCap (p.cap.set .e1 { Engine.atReset with state := .armed, start := .afterOther })
     let q := q.setOrders { q.orders with capture := q.orders.capture.set .e1 (some 3) }
     answerOf 3 (after q 0#16) = answered .abortedUpstream []) := by decide +kernel

theorem test_witness_VibSelftestOrder :
    let after := fun p : Part => partAfter (.vibSelftest 0) (order .vibSelftest p [])
    let s := order .vibSelftest idlePart []
    let enabled := mapOrders
      (fun o => { o with settings := { o.settings with enableSet := 0x81#16 } }) idlePart
    (s.agenda = .order .vibSelftest 0 :: [] ∧ Memory.wf s.part.exch.mem = true) ∧
    answerOf 0 (after (running idlePart)) = answered .busy [] ∧
    answerOf 0 (after (mapOrders (fun o => { o with selftest := some 4 }) idlePart)) =
      answered .busy [] ∧
    answerOf 0 (after Part.reset) = answered .noSettings [] ∧
    answerOf 0 (after (inGroup .tripped .tripped idlePart)) = answered .notIdle [] ∧
    cellState (after enabled) 0 = cellTaken ∧ (after enabled).acq.testLines = 0x81#8 := by
  decide +kernel

theorem test_witness_LinkTestOrder :
    let after := fun (p : Part) (arg : Word) => partAfter (.linkTest 0) (order .linkTest p [arg])
    let s := order .linkTest idlePart [1#16]
    (s.agenda = .order .linkTest 0 :: [] ∧ Memory.wf s.part.exch.mem = true) ∧
    answerOf 0 (after idlePart 3#16) = answered .badArgument [] ∧
    answerOf 0 (after Part.reset 1#16) = answered .linkNotUp [] ∧
    answerOf 0 (after (mapOrders (fun o => { o with linkTest := o.linkTest.set .a (some 5) }) idlePart)
      1#16) = answered .busy [] ∧
    cellState (after idlePart 2#16) 0 = cellTaken ∧
    ((after idlePart 2#16).links.get .b).testPending = true := by decide +kernel

theorem test_witness_LinkResetOrder :
    let after := fun (p : Part) (arg : Word) => partAfter (.linkReset 0) (order .linkReset p [arg])
    let testing := mapOrders (fun o => { o with linkTest := o.linkTest.set .a (some 5) }) idlePart
    let s := order .linkReset testing [1#16]
    (s.agenda = .order .linkReset 0 :: [] ∧ Memory.wf s.part.exch.mem = true) ∧
    s.part.orders.linkTest.get .a = some 5 ∧
    answerOf 0 (after idlePart 0#16) = answered .badArgument [] ∧
    answerOf 0 (after (inGroup .running .running idlePart) 1#16) = answered .notIdle [] ∧
    answerOf 0 (after testing 1#16) = answered .ok [] ∧
    answerOf 5 (after testing 1#16) = answered .cancelled [3#16] ∧
    ((after testing 1#16).links.get .a).state = .syncing := by decide +kernel

/-! ## The machine and the host's accesses -/

/-- The agenda after a command. -/
def agendaAfter (c : Instr) (s : State) : List Work :=
  match exec c s with
  | .next t => t.agenda
  | .fault _ => s.agenda
  | .refused _ => s.agenda

/-- A part with nothing due. -/
def still (p : Part) : State := { pending := [], agenda := [], part := p }

/-- A part in a phase. -/
def inPhase (x : Phase) (p : Part) : Part := p.setPhase x

theorem test_witness_IdleStep :
    State.reset.pending = [] ∧ State.reset.agenda = [] ∧ beforeRow State.reset.agenda = true ∧
    (let s := due Part.reset .recordClose
     s.pending = [] ∧ s.agenda = .recordClose :: [] ∧ beforeRow s.agenda = true) := by decide +kernel

/-- A state whose guard count stands at its bound, with a write of a read-only word waiting. -/
def guarded : State :=
  { State.reset with
    pending := [.hostWrite 0#16 5#16]
    part := Part.reset.setExch { Part.reset.exch with guardCount := 65535 } }

theorem test_witness_StepKeepsMemoryCanonical :
    guarded.part.memoryCanonical ∧ ∃ t, step guarded = .next t :=
  ⟨show Memory.wf guarded.part.exch.mem = true by decide +kernel, _, rfl⟩

theorem test_witness_StepKeepsCounts : guarded.part.CountsInRange ∧ ∃ t, step guarded = .next t :=
  ⟨{ guardCount := by decide, applyCount := by decide, period := by decide
     encoder := fun m => by cases m <;> exact ⟨by decide, by decide⟩
     overspeedRun := by decide, mismatchRun := by decide
     control := fun m => by cases m <;> exact ⟨by decide, by decide⟩
     link := fun m => by cases m <;> exact ⟨by decide, by decide, by decide⟩
     stepCount := fun m => by cases m <;> decide
     remainder := by decide, thermal := fun m => by cases m <;> decide
     gearRun := by decide, channel := fun c => by cases c <;> exact ⟨by decide, by decide⟩
     unrecorded := by decide, followOns := fun f h => by cases h
     history := by decide, fast := by decide }, _, rfl⟩

theorem test_witness_StepKeepsRoutingAndLatched_routing :
    (let s := { guarded with pending := [.routingWrite 0xFFFF#16] }
     s.part.attn.routingLegal ∧ ∃ t, step s = .next t) :=
  ⟨fun src => by cases src <;> decide, _, rfl⟩

theorem test_witness_StepKeepsRoutingAndLatched_latched :
    (let s := { still (latching [{ cause := .overcurrent .a, cls := .inhibitOne },
        { cause := .halt, cls := .rampAll }] Part.reset) with pending := [.tripInAsserted] }
     latchedAscending s.part.trip.latched ∧ ∃ t, step s = .next t) :=
  ⟨⟨by decide, trivial⟩, _, rfl⟩

/-- Writes at the first and last word of every writable region, and beside them (R1, R2, R11, R173, R182). -/
theorem test_witness_HostWriteJudged :
    let p := engineIn .e0 .running .immediate Part.reset
    let q := p.setMem (writeFields p.exch.mem 0 [(0x140, 4#16), (0x180, 2#16), (0x10000, 2#16)])
    let kept := fun off value => partAfter (.hostWrite (BitVec.ofNat 16 (off / 2)) value) (still q) = dropWrite off q
    let stored := fun off value => readWord (partAfter (.hostWrite (BitVec.ofNat 16 (off / 2)) value)
      (still q)).exch.mem off = value ∧ guardAccepts q off value = true
    (q.phase = .ready ∧ Memory.wf q.exch.mem = true) ∧
    stored 0x100 1#16 ∧ kept 0x100 2#16 ∧ stored 0x13E 9#16 ∧ stored 0x140 0#16 ∧ kept 0x140 1#16 ∧
    kept 0x142 9#16 ∧ kept 0x180 0#16 ∧ kept 0x500 9#16 ∧ stored 0x1000 9#16 ∧
    stored 0x3FFE 9#16 ∧ kept 0x4000 9#16 ∧ kept 0x41FE 9#16 ∧ stored 0x4200 9#16 := by decide +kernel

theorem test_witness_HostWriteJudged_slots :
    let q := Part.reset.setMem (writeWord Part.reset.exch.mem 0x10000 2#16)
    let after := fun off value => partAfter (.hostWrite (BitVec.ofNat 16 (off / 2)) value) (still q)
    slotState (after 0x10000 0#16) .s0 = 0#16 ∧ after 0x10000 1#16 = dropWrite 0x10000 q ∧
    after 0x10002 0#16 = dropWrite 0x10002 q ∧ after 0x14000 0#16 = dropWrite 0x14000 q ∧
    readWord (after 0xFFFE 7#16).exch.mem 0xFFFE = 7#16 := by decide +kernel

theorem test_witness_IgnoredWrites :
    (inPhase .startingPowerOn Part.reset).phase ≠ .ready ∧
    (inPhase (.startingPart true) Part.reset).phase ≠ .ready := by decide

/-- Spec 01: the identity word, and STATUS in READY with both flags set and frame count 8195. -/
theorem test_hostRead :
    (partAfter (.hostRead (.memory 0#16)) State.reset).pins.hostData = 0x4B32#16 ∧
    (let p := idlePart.setAcq { idlePart.acq with frameCount := 8195#32 }
     (partAfter (.hostRead .status) (still p)).pins.hostData = 0xE003#16) := by decide +kernel

/-- Clearing ORDER alone (R8). -/
theorem test_witness_AttentionRegistersWritten_acknowledge :
    let p := raiseSource .order (raiseSource .link Part.reset)
    p.phase = .ready ∧ (partAfter (.attentionAcknowledge 0xFF01#16) (still p)).attn.pending = 0x80#8 := by
  decide +kernel

/-- A field of 3 is stored as 0 (R9). -/
theorem test_witness_AttentionRegistersWritten_routing :
    Part.reset.phase = .ready ∧
    (partAfter (.routingWrite 0xC00B#16) State.reset).attn.routing = 0x0008#16 := by decide +kernel

/-- A part with slot 1 being filled. -/
def fillingPart : Part :=
  (Part.reset.setTrip { Part.reset.trip with
    filling := some { slot := .s1, preTrip := 0, postTrip := 1, preWritten := 0, postWritten := 0
                      listed := 0, more := 0, frames := 0 } }).setMem
    (writeWord Part.reset.exch.mem 0x14000 1#16)

theorem test_witness_PartResetState :
    (0x5A00#16 : Word) ≠ 0x5A01#16 ∧
    (let s := still fillingPart
     s.part.phase = .ready ∧ betweenEvents s.agenda = true ∧ Memory.wf s.part.exch.mem = true ∧
     s.part.trip.filling.isSome = true ∧
     readWord (partAfter (.partResetRequest 0x5A01#16) s).exch.mem 0x14020 = 1#16) := by decide +kernel

/-- A slot whose close is due is still FILLING when the reset is requested: it is closed truncated, and RECORD is
raised at READY (R10, R174). -/
theorem test_witness_PartResetState_close :
    let s := { due fillingPart .recordClose with agenda := [.recordClose, .frameOf .live] }
    let q := partAfter (.partResetRequest 0x5A01#16) s
    (s.part.phase = .ready ∧ betweenEvents (s.agenda.filter (fun w => w != .recordClose)) = true ∧
      Memory.wf s.part.exch.mem = true) ∧
    slotState q .s1 = slotReady ∧ readWord q.exch.mem 0x14020 = 1#16 ∧ q.phase = .startingPart true ∧
    q.raised .record = false ∧ (partAfter .resetEnd (still q)).raised .record = true := by decide +kernel

/-- A HALT that waits in a due order scan is not taken by the part reset (R10): nothing is latched or numbered,
and the slot that was filling is closed truncated. A trip event that a begun event brings about is. -/
theorem test_part_reset_drops_posted_orders :
    let waiting := { due fillingPart (.order .halt 0) with agenda := [.order .halt 0, .frameOf .live] }
    let begun := { due fillingPart .failedStart with agenda := [.failedStart, .order .halt 0] }
    let after := fun s : State => (partAfter (.partResetRequest 0x5A01#16) s)
    (waiting.part.phase = .ready ∧ betweenEvents waiting.agenda = true ∧
      betweenEvents begun.agenda = false) ∧
    (after waiting).trip.sequence = 0#16 ∧ slotState (after waiting) .s1 = slotReady ∧
    agendaAfter (.partResetRequest 0x5A01#16) waiting = [] ∧
    (after begun).trip.sequence = 1#16 ∧ (after begun).trip.latched = [] := by decide +kernel

theorem test_witness_ResetEndState :
    State.reset.part.phase = .ready ∧
    (let p := inPhase (.startingPart true) Part.reset
     p.phase ≠ .ready ∧ Memory.wf p.exch.mem = true ∧ p.pins.tripIn = false) ∧
    (let p := (inPhase .startingPowerOn Part.reset).setPins { Part.reset.pins with tripIn := true }
     p.phase ≠ .ready ∧ p.pins.tripIn = true ∧ isLatched p.trip.latched .external = false ∧
     Memory.wf p.exch.mem = true ∧ (partAfter .resetEnd (still p)).seq.group = .tripped ∧
     (partAfter .resetEnd (still p)).trip.sequence = 1#16 ∧
     isLatched (partAfter .resetEnd (still p)).trip.latched .external = true) := by decide +kernel

theorem test_witness_TripInLine :
    betweenEvents State.reset.agenda = true ∧ Memory.wf State.reset.part.exch.mem = true ∧
    State.reset.part.phase = .ready ∧ isLatched State.reset.part.trip.latched .external = false ∧
    (partAfter .tripInAsserted State.reset).seq.group = .tripped ∧
    (let p := latching [{ cause := .external, cls := .inhibitAll }] Part.reset
     (partAfter .tripInAsserted (still p)).trip.sequence = 0#16) := by decide +kernel

theorem test_witness_LiveBlockShown :
    Memory.wf idlePart.exch.mem = true ∧
    (let p := idlePart.setAcq { idlePart.acq with frameCount := 0x10002#32 }
     readWords (runWork (.frameOf .live) p).part.exch.mem 0x500 2 = [2#16, 1#16]) ∧
    (let p := idlePart.setMem (writeWords idlePart.exch.mem 0x53C [7#16, 8#16])
     readWords (runWork (.frameOf .live) p).part.exch.mem 0x53C 2 = [0#16, 0#16]) := by decide +kernel

/-- A part in the period position given, with the slot given under way. -/
def atSlot (period : Nat) (slot : Option Nat) (p : Part) : Part :=
  p.setAcq { p.acq with period, slot, converted := List.replicate (slot.getD 0) Sample.zero }

theorem test_witness_PeriodExpiry :
    (inPhase .startingPowerOn Part.reset).phase ≠ .ready ∧
    (let s := still (atSlot 3 none Part.reset)
     s.part.phase = .ready ∧ s.agenda = [] ∧ s.part.acq.slot = none ∧
     agendaAfter .controlPeriodExpiry s = [.supervisionFrame]) ∧
    (let w : ReplyWindow := { sequence := 3, test := false, first := none, further := false, closed := false }
     let s := still ((atSlot 3 none Part.reset).setLinks
       (PerMotor.both { Link.atReset .up with window := some w }))
     s.part.phase = .ready ∧ s.agenda = [] ∧ s.part.acq.slot = none ∧
     (s.part.links.get .b).window = some w ∧
     agendaAfter .controlPeriodExpiry s = [.replyWindowClose .a, .replyWindowClose .b, .supervisionFrame] ∧
     ((partAfter .controlPeriodExpiry s).links.get .b).window = some { w with closed := true }) ∧
    (let s := still (atSlot 4 (some 13) Part.reset)
     s.agenda = [] ∧ s.part.acq.slot = some 13 ∧
     (partAfter .controlPeriodExpiry s).acq.period = 1 ∧
     (partAfter .controlPeriodExpiry s).acq.scan.getD 13 Sample.zero =
       { value := 0, mark := .invalidLate }) := by decide +kernel

theorem test_witness_FrameEvent :
    let s := due (Part.reset.setAcq { Part.reset.acq with frameCount := 4294967295#32 }) .supervisionFrame
    s.agenda = .supervisionFrame :: [] ∧ (Instr.supervisionFrame [.live, .orders]).wellFormed = true ∧
    State.reset.agenda = [] ∧
    (partAfter (.supervisionFrame [.live, .orders]) s).acq.frameCount = 1#32 ∧
    (agendaAfter (.supervisionFrame [.acquisition]) s) = [] := by decide +kernel

/-- The order scan: a POSTED cell is taken by its kind word, the ends of the kinds, and other cells passed
over (R12, R15). -/
theorem test_witness_FrameEvent_scan :
    let cell := fun state kind : Word => runWork (.scanCell 15) (Part.reset.setMem
      (writeFields Part.reset.exch.mem 0x100 [(0x40 * 15, state), (0x40 * 15 + 2, kind)]))
    let p := Part.reset.setMem (writeWord Part.reset.exch.mem 0x4C0 1#16)
    readWord p.exch.mem (0x100 + 0x40 * 15) = 1#16 ∧ readWord p.exch.mem 0x100 ≠ 1#16 ∧
    (cell 1#16 14#16).due = [.order .linkReset 15] ∧ (cell 1#16 1#16).due = [.order .applySettings 15] ∧
    (cell 1#16 0#16).due = [.order .unknown 15] ∧ (cell 1#16 15#16).due = [.order .unknown 15] ∧
    (cell 0#16 3#16).due = [] ∧ (cell 2#16 3#16).due = [] ∧
    (cell 4#16 3#16).due = [] := by decide +kernel

/-- Inputs at full scale, beyond it, late, and at the overcurrent threshold of 32767 (R48 to R50). -/
theorem test_witness_ConversionSlotEnded :
    let s := fun ch => still (atSlot 1 (some ch) Part.reset)
    let last := fun t : Part => t.acq.converted.getLast?
    (expiryOver State.reset.agenda = true ∧ State.reset.part.acq.slot = none ∧
      expiryOver [.frameOf .orders, .order .capture 2] = true ∧ expiryOver [.supervisionFrame] = false ∧
      expiryOver [.frameOf .orders, .replyWindowClose .a] = false ∧ expiryOver [.gearOverload] = false) ∧
    (expiryOver (s 13).agenda = true ∧ (s 13).part.acq.slot = some 13 ∧ Memory.wf (s 13).part.exch.mem = true) ∧
    last (partAfter (.conversionSlotEnd (some 32768)) (s 4)) =
      some { value := 32767, mark := .invalidRange } ∧
    last (partAfter (.conversionSlotEnd (some (-32767))) (s 4)) =
      some { value := -32767, mark := .valid } ∧
    last (partAfter (.conversionSlotEnd none) (s 0)) = some { value := 0, mark := .invalidLate } ∧
    isLatched (partAfter (.conversionSlotEnd none) (s 0)).trip.latched (.overcurrent .a) = false ∧
    isLatched (partAfter (.conversionSlotEnd (some 32766)) (s 1)).trip.latched (.overcurrent .a) = false ∧
    isLatched (partAfter (.conversionSlotEnd (some (-32767))) (s 3)).trip.latched (.overcurrent .b) = true ∧
    agendaAfter (.conversionSlotEnd (some 0)) (s 13) = [.scanComplete] := by decide +kernel

/-- A slot ends while an IMMEDIATE CAPTURE waits to be taken in the frame of its period: the order is taken after
the scan, so the scan of position 4 takes no sample (R178). -/
theorem test_conversion_slot_before_order :
    let s := { still (atSlot 4 (some 13) Part.reset) with agenda := [.order .capture 0, .frameOf .live] }
    agendaAfter (.conversionSlotEnd (some 0)) s =
      [.scanComplete, .order .capture 0, .frameOf .live] := by decide +kernel

theorem test_witness_ScanCompleted :
    let s := due (atSlot 1 (some 14) Part.reset) .scanComplete
    s.agenda = .scanComplete :: [] ∧ (Instr.scanComplete [.capture]).wellFormed = true ∧
    State.reset.agenda = [] ∧
    (partAfter (.scanComplete [.capture]) s).trip.fast.length = 1 := by decide +kernel

/-- From the pair (0,0): one step up, one down, and two at once (R51). -/
theorem test_witness_EncoderTransitionCounted :
    let e := fun p q => (partAfter (.encoderTransition .a p q) State.reset).acq.enc.get .a
    let broken := Part.reset.setAcq { Part.reset.acq with
      enc := PerMotor.both (Encoder.atReset false false true) }
    betweenEvents State.reset.agenda = true ∧ State.reset.part.phase = .ready ∧
    (inPhase .startingPowerOn Part.reset).phase ≠ .ready ∧ (broken.acq.enc.get .a).lineBreak = true ∧
    (e false true).counter = 1#32 ∧ (e true false).counter = 0xFFFFFFFF#32 ∧
    (e true true).valid = false ∧ (e false false).counter = 0#32 ∧
    ((partAfter (.encoderTransition .a false true) (still broken)).acq.enc.get .a).counter = 0#32 := by
  decide +kernel

/-- The sixteenth legal transition of an invalid encoder (R52). -/
theorem test_encoder_regains :
    let p := Part.reset.setAcq { Part.reset.acq with
      enc := PerMotor.both { Encoder.atReset false false true with lineBreak := false, legalRun := 15 } }
    agendaAfter (.encoderTransition .b false true) (still p) = [.encoderValidRegained .b] := by
  decide +kernel

theorem test_witness_EncoderLineAndValidity :
    let s := due Part.reset (.encoderValidRegained .a)
    betweenEvents State.reset.agenda = true ∧ s.agenda = .encoderValidRegained .a :: [] ∧
    ((partAfter (.lineBreakAsserted .a) State.reset).acq.enc.get .a).valid = false ∧
    ((partAfter (.lineBreakAsserted .a) (still (inPhase .startingPowerOn Part.reset))).acq.enc.get .a).valid
      = true := by decide +kernel

/-- A row of a motor cause, the failed start, a row of a group cause, and a cause latched already. -/
theorem test_witness_ReportRows :
    (ReportRow (.encoderLost .b) (.encoderLost .b) (.encoderLost .b) ∧
      ReportRow .failedStart .failedStart .failedStart ∧ ReportRow .overspeed .overspeed .overspeed) ∧
    (∀ w, (due idlePart w).agenda = w :: []) ∧ Memory.wf idlePart.exch.mem = true ∧
    isLatched idlePart.trip.latched .overspeed = false ∧
    isLatched (latching [{ cause := .overspeed, cls := .inhibitAll }] idlePart).trip.latched
      .overspeed = true :=
  ⟨⟨.encoderLost .b, .failedStart, .overspeed⟩, fun _ => rfl, by decide +kernel, by decide,
    by decide⟩

/-- A part whose four slots have the state words given, READY where none is given. -/
def withSlots (states : List Word) (p : Part) : Part :=
  p.setMem (writeFields p.exch.mem 0x10000
    ((List.range 4).map (fun i => (0x4000 * i, states.getD i 2#16))))

/-- The three ways of the record writer (R168 to R172), with a post-trip length of 1 and of 0. -/
theorem test_witness_ReportRows_records :
    let q := fun (postTrip : Nat) (p : Part) => partAfter .failedStart (due
      (mapOrders (fun o => { o with settings := { o.settings with postTrip } }) p) .failedStart)
    let second := withSlots [2#16, 0#16] idlePart
    let full := withSlots [] idlePart
    (second.trip.filling = none ∧ slotState second .s1 = slotFree ∧ slotState second .s0 ≠ slotFree) ∧
    (q 1 second).trip.filling.map Filling.slot = some .s1 ∧
    slotState (q 1 second) .s1 = slotFilling ∧ slotState (q 0 second) .s1 = slotReady ∧
    (q 0 second).raised .record = true ∧
    readWords (q 1 second).exch.mem 0x14002 3 = [1#16, 19#16, 2#16] ∧
    (full.trip.filling = none ∧ ∀ x ∈ SlotId.all, slotState full x ≠ slotFree) ∧
    (q 1 full).trip.unrecorded = 1 ∧ (q 1 full).trip.filling = none ∧
    fillingPart.trip.filling.isSome = true ∧
    (q 1 fillingPart).trip.filling.map Filling.listed = some 1 ∧
    readWords (q 1 fillingPart).exch.mem 0x14010 2 = [0x0213#16, 0#16] := by decide +kernel

/-- The trip orders on a motor RUNNING, one alone and one that carries on (R107 to R110). -/
theorem test_witness_ReportRows_orders :
    let p := (mapOrders (fun o => { o with settings := { o.settings with singleAllowed := true } })
      (inGroup .running .running idlePart)).setAllot { idlePart.allot with
        motor := PerMotor.both { LimitRecord.atReset 0 with torqueRef := -9 } }
    let alone := p.setSeq (p.seq.setMotor .b { p.seq.motor.b with state := .stopped })
    (p.seq.group = .running ∧ p.settings.singleAllowed = true ∧ p.motorState .b = .running ∧
      p.motorState .a ≠ .out) ∧
    (inhibitAllOrder p).motorState .a = .tripped ∧
    ((rampAllOrder p).motorState .a, (rampAllOrder p).seq.motor.a.ramp) = (.stopping, 9) ∧
    (rampAllOrder p).seq.motor.a.ramping = true ∧
    ((inhibitOneOrder .a p).seq.group, (inhibitOneOrder .a p).motorState .b) = (.running, .running) ∧
    ((inhibitOneOrder .a alone).seq.group, (inhibitOneOrder .a alone).motorState .b) =
      (.tripped, .tripped) := by decide +kernel

/-- The orders in flight at a trip event: over for a group cause, with the cells finished and ORDER pending; a RUN
that names the other motor alone goes on (R18, R19, R158). -/
theorem test_witness_OrdersAtTrip :
    let p := mapOrders (fun o => { o with
      settings := { o.settings with singleAllowed := true }, stop := some 3 })
      (running (inGroup .running .running idlePart))
    let q := partAfter .failedStart (due p .failedStart)
    let r : RunEntry := { cell := 1, named := { a := true, b := false }, joining := PerMotor.both false }
    let other := mapOrders (fun o => { o with run := some r, stop := none }) p
    let kept := partAfter (.encoderLost .b) (due other (.encoderLost .b))
    (q.orders.run, q.orders.stop, q.raised .order) = (none, none, true) ∧
    answerOf 1 q = answered .abortedByTrip [] ∧ answerOf 3 q = answered .abortedByTrip [] ∧
    kept.trip.sequence = 1#16 ∧ kept.orders.run = some r ∧ kept.raised .order = false := by decide +kernel

/-- Spec 09, the cause table: the class of a motor cause, of a failed start and of a group cause. -/
theorem test_report_classes :
    let after := fun c w => (partAfter c (due idlePart w)).trip.latched
    Memory.wf (due idlePart .failedStart).part.exch.mem = true ∧
    after .failedStart .failedStart = [{ cause := .failedStart, cls := .rampAll }] ∧
    after (.currentSensorLost .b) (.currentSensorLost .b) =
      [{ cause := .currentSensorLost .b, cls := .inhibitOne }] ∧
    after (.encoderLost .a) (.encoderLost .a) = [{ cause := .encoderLost .a, cls := .inhibitOne }] ∧
    after .speedMismatch .speedMismatch = [{ cause := .speedMismatch, cls := .inhibitAll }] ∧
    after .overspeed .overspeed = [{ cause := .overspeed, cls := .inhibitAll }] ∧
    after .failedStart .overspeed = [{ cause := .overspeed, cls := .inhibitAll }] := by decide +kernel

/-! ## Links, control, sequencing, allotment -/

/-- A part with link A as given. -/
def linked (l : Link) (p : Part) : Part := p.setLinks (p.links.set .a l)

/-- An open window of a frame with sequence number 0, with the first reply given. -/
def windowOf (test : Bool) (first : Option (List Word)) : Option ReplyWindow :=
  some { sequence := 0, test, first, further := false, closed := false }

theorem test_witness_ReplyIntoWindow :
    let p := linked { Link.atReset .up with window := windowOf false none } idlePart
    (idlePart.links.get .a).window = none ∧ (p.links.get .a).window = windowOf false none ∧
    ((partAfter (.replyReceived .a [7#16]) (still p)).links.get .a).window =
      windowOf false (some [7#16]) ∧
    (let q := partAfter (.replyReceived .a [8#16]) (still (partAfter (.replyReceived .a [7#16]) (still p)))
     (q.links.get .a).window.map (fun w => (w.first, w.further)) = some (some [7#16], true)) := by
  decide +kernel

/-- A reply that comes between the expiry and the close is discarded: the window closes without it (R82). -/
theorem test_witness_ReplyIntoWindow_closed :
    let p := linked { Link.atReset .up with window := windowOf false none } (atSlot 1 none idlePart)
    let s := still (partAfter .controlPeriodExpiry (still p))
    (s.part.links.get .a).window.map ReplyWindow.closed = some true ∧
    (partAfter (.replyReceived .a [7#16]) s).links = s.part.links := by decide +kernel

/-- A READY reply brings the sync run from 15 to 16, a missing one the loss count from 7 to the reset copy's
tolerance of 8, and a FAULT reply latches INVERTER_FAULT unless the motor is OUT (R85 to R89). -/
theorem test_witness_ReplyWindowClosed :
    let s := fun (l : Link) (p : Part) => due (linked l p) (.replyWindowClose .a)
    let ready := windowOf false (some [0x0000#16, 0x1D0F#16])
    let fault := windowOf false (some [0x0720#16, 0xA0FA#16])
    let syncing := { Link.atReset .syncing with syncRun := 15 }
    let up := { Link.atReset .up with lossCount := 7 }
    let out := inGroup .idle .out idlePart
    let after := fun (l : Link) (p : Part) => partAfter (.replyWindowClose .a) (s l p)
    let rows := fun (l : Link) (p : Part) => agendaAfter (.replyWindowClose .a) (s l p)
    ((s up idlePart).agenda = .replyWindowClose .a :: [] ∧
      Memory.wf (s up idlePart).part.exch.mem = true ∧ up.window = none) ∧
    rows { syncing with window := ready } idlePart = [.linkUp .a] ∧
    ((after { syncing with window := windowOf false none } idlePart).links.get .a).syncRun = 0 ∧
    rows { up with window := windowOf false none } idlePart = [.linkLost .a] ∧
    ((after { up with window := ready } idlePart).links.get .a).lossCount = 0 ∧
    ((after { up with state := .lost, window := ready } idlePart).links.get .a).lossCount = 7 ∧
    (after { up with window := fault } idlePart).trip.latched =
      [{ cause := .inverterFault .a, cls := .inhibitOne }] ∧
    (after { up with window := fault } idlePart).trip.sequence = 1#16 ∧
    (after { up with window := fault } (latching [{ cause := .inverterFault .a, cls := .inhibitOne }]
      idlePart)).trip.sequence = 0#16 ∧
    ((after { up with window := fault } idlePart).links.get .a).faultCode = 7 ∧
    isLatched (after { up with window := fault } out).trip.latched (.inverterFault .a) = false := by
  decide +kernel

/-- The three outcomes of a link test (R27, R92). -/
theorem test_witness_ReplyWindowClosed_test :
    let testing := mapOrders (fun o => { o with linkTest := o.linkTest.set .a (some 6) }) idlePart
    let after := fun first => answerOf 6 (partAfter (.replyWindowClose .a)
      (due (linked { Link.atReset .up with window := windowOf true first } testing) (.replyWindowClose .a)))
    testing.orders.linkTest.get .a = some 6 ∧
    after (some [0x0040#16, 0x55CB#16]) = answered .pass [0#16, 0#16, 0#16] ∧
    after (some [0x0000#16, 0x1D0F#16]) = answered .fail [1#16, 0#16, 0#16] ∧
    after none = answered .fail [2#16] ∧
    (let s := due (linked { Link.atReset .up with window := windowOf true none } testing) (.replyWindowClose .a)
     let q := partAfter (.replyWindowClose .a) s
     (q.orders.linkTest.a, q.raised .order, q.trip) = (none, true, s.part.trip)) := by decide +kernel

theorem test_witness_LinkUpAndLost :
    let up := due Part.reset (.linkUp .b)
    let lost := fun p => due p (.linkLost .b)
    (Memory.wf up.part.exch.mem = true ∧ up.agenda = .linkUp .b :: [] ∧
      (lost idlePart).agenda = .linkLost .b :: []) ∧
    ((partAfter (.linkUp .b) up).links.get .b).state = .up ∧
    isLatched (partAfter (.linkLost .b) (lost idlePart)).trip.latched (.linkLost .b) = true ∧
    isLatched (partAfter (.linkLost .b) (lost (inGroup .idle .out idlePart))).trip.latched
      (.linkLost .b) = false := by decide +kernel

/-- Spec 05, the worked link test: sequence 11, INHIBIT, no voltage, the check word inverted. -/
theorem test_reference_frame_of_link_test :
    let p := linked { Link.atReset .up with sequence := 11, testPending := true } idlePart
    ((runWork (.controlCompute .a) p).part.links.get .a).sent = [43#16, 0#16, 0#16, 0x15A4#16] := by
  decide +kernel

/-- The command of each link state, and of UP with the motor energized, inhibited and at rest (R83). -/
theorem test_witness_ReferenceFrameSent :
    let word0 := fun (l : Link) (p : Part) =>
      ((runWork (.controlCompute .a) (linked l p)).part.links.get .a).sent.head?
    let on := inGroup .running .running idlePart
    let up := { Link.atReset .up with sequence := 15 }
    word0 (Link.atReset .down) idlePart = none ∧ word0 (Link.atReset .syncing) idlePart = some 0x10#16 ∧
    word0 (Link.atReset .lost) on = some 0x20#16 ∧ word0 up on = some 0x3F#16 ∧
    word0 up (latching [{ cause := .halt, cls := .inhibitAll }] on) = some 0x2F#16 ∧
    word0 up (latching [{ cause := .halt, cls := .rampAll }] on) = some 0x3F#16 ∧
    word0 up idlePart = some 0x2F#16 := by decide +kernel

/-- Inputs that leave both axes free, and the worked period, which limits the q axis alone; with Vmax 0 both
are flagged (R74 to R78). -/
theorem test_witness_RegulatorWithinVoltage :
    let i : RegulatorInputs := { idRef := 0, iqRef := 0, id := 0, iq := 0, speed := 0, udc := 32767, kp := 0
                                 ki := 0, vlim := 32767, kemf := 0 }
    (regulate i 5 (-5)).limited = 0 ∧ (regulate { i with udc := -1 } 5 (-5)).limited = 3 ∧
    (regulate { i with udc := -1 } 5 (-5)).integD = 5 := by decide +kernel

theorem test_witness_TripRampEnded :
    let s := due (inGroup .tripped .stopping idlePart) (.tripRampEnd .a)
    s.agenda = .tripRampEnd .a :: [] ∧ (partAfter (.tripRampEnd .a) s).motorState .a = .tripped ∧
    (partAfter (.tripRampEnd .a) s).motorState .b = .stopping := by decide +kernel

/-- The release of motors and group, and a trip ramp that comes to 0 at the torque ramp and one that does not
(R111, R115). -/
theorem test_witness_TripRampEnded_frame :
    let work := runWork (.frameOf .sequencer)
    let tripped := inGroup .tripped .tripped idlePart
    let latchedTripped := latching [{ cause := .thermal .b, cls := .rampAll }] tripped
    let ramping := fun v : Int => mapOrders
      (fun o => { o with settings := { o.settings with stopRamp := 10 } })
      (idlePart.setSeq { idlePart.seq with
        group := .tripped
        motor := PerMotor.both { state := .stopping, stepCount := 3, idRef := 7, ramp := v, ramping := true } })
    let one := (ramping 10).setSeq ((ramping 10).seq.setMotor .a
      { state := .stopping, stepCount := 3, idRef := 7, ramp := 0, ramping := false })
    (work tripped).part.seq.group = .idle ∧ (work tripped).part.motorState .a = .stopped ∧
    (work latchedTripped).part.seq.group = .tripped ∧
    (work latchedTripped).part.motorState .a = .stopped ∧
    (work latchedTripped).part.motorState .b = .tripped ∧
    (work (ramping 11)).part.seq.motor.b.ramp = 1 ∧ (work (ramping 11)).due = [.sequencerStart] ∧
    (work (ramping 10)).due = [.tripRampEnd .a, .tripRampEnd .b, .sequencerStart] ∧
    (work one).due = [.tripRampEnd .b, .sequencerStart] := by decide +kernel

/-- A part whose MAGNETIZING motors have the step count given; the reset copy's time is 50. -/
def magnetizing (g : GroupState) (k : Nat) : Part :=
  running (idlePart.setSeq { idlePart.seq with
    group := g
    motor := PerMotor.both { state := .magnetizing, stepCount := k, idRef := 0, ramp := 0, ramping := false } })

theorem test_witness_MagnetizingFinished :
    let s := fun p => due p .magnetizingRampFinished
    let after := fun p => partAfter .magnetizingRampFinished (s p)
    (s (magnetizing .idle 50)).agenda = .magnetizingRampFinished :: [] ∧
    Memory.wf (magnetizing .idle 50).exch.mem = true ∧
    (after (magnetizing .idle 50)).seq.group = .starting ∧
    (after (magnetizing .idle 50)).seq.allowance = some 2000 ∧
    answerOf 1 (after (magnetizing .running 50)) = answered .ok [] ∧
    (after (magnetizing .running 49)).motorState .a = .magnetizing ∧
    (after (magnetizing .running 49)).orders.run = some runEntry := by decide +kernel

/-- The frame's start steps: at creep speed, one below it with the allowance at 1, and a magnetizing step (R100,
R101). -/
theorem test_witness_MagnetizingFinished_start :
    let starting := fun speed : Int => running ((mapOrders
      (fun o => { o with settings := { o.settings with creep := 100, fluxRef := 9999 } })
      ((inGroup .starting .running idlePart).setAcq { idlePart.acq with driveSpeed := speed })).setSeq
      { (inGroup .starting .running idlePart).seq with allowance := some 1 })
    let work := runWork .sequencerStart
    let ramp := fun k => work (magnetizing .idle k)
    Memory.wf (starting 100).exch.mem = true ∧ (starting 100).seq.group = .starting ∧
    (starting 100).orders.run = some runEntry ∧
    (work (starting 100)).part.seq.group = .running ∧
    answerOf 1 (work (starting 100)).part = answered .ok [] ∧
    (work (starting 100)).due = [.sequencerLoop false] ∧
    (work (starting 99)).part.seq.allowance = some 0 ∧ (work (starting 99)).due = [.sequencerLoop true] ∧
    (ramp 48).due = [.sequencerLoop false] ∧ (ramp 48).part.seq.motor.a.stepCount = 49 ∧
    (ramp 49).due = [.magnetizingRampFinished, .sequencerLoop false] ∧
    (ramp 65535).part.seq.motor.a.stepCount = 65535 := by decide +kernel

/-- The ordered stop completes at reference 0 below standstill, not at it; a failed start is due behind the loop
(R104, R106). -/
theorem test_witness_SpeedLoopBounds_steps :
    let stopping := fun speed : Int => mapOrders
      (fun o => { o with stop := some 3, settings := { o.settings with standstill := 5, fluxRef := 77 } })
      ((inGroup .stopping .stopping idlePart).setAcq { idlePart.acq with driveSpeed := speed })
    let work := fun p => runWork (.sequencerLoop false) p
    Memory.wf (stopping 4).exch.mem = true ∧ (stopping 4).seq.reference = 0 ∧
    (work (stopping 4)).part.seq.group = .idle ∧ (work (stopping 4)).part.motorState .a = .stopped ∧
    answerOf 3 (work (stopping 4)).part = answered .ok [] ∧
    (work (stopping 5)).part.seq.group = .stopping ∧ (work (stopping 5)).part.seq.motor.a.idRef = 77 ∧
    (runWork (.sequencerLoop true) idlePart).due = [.failedStart] := by decide +kernel

theorem test_witness_SpeedLoopBounds :
    let p := inGroup .stopping .stopping idlePart
    p.seq.group = .stopping ∧ 0 ≤ p.settings.capMotoring ∧ 0 ≤ p.settings.capRegenerating ∧
    (inGroup .starting .running idlePart).seq.group = .starting := by decide +kernel

/-- Shares and limits at their ends, demands of both signs (R127 to R129). -/
theorem test_witness_TorqueDivided :
    (0 : Nat) ≤ 256 ∧ (256 : Nat) ≤ 256 ∧
    divideDemand 100 64 25 75 = { a := 25, b := 75, remainder := 0 } ∧
    divideDemand 100 64 90 60 = { a := 40, b := 60, remainder := 0 } ∧
    divideDemand 100 256 0 30 = { a := 0, b := 30, remainder := 70 } ∧
    divideDemand (-100) 0 30 60 = { a := -30, b := -60, remainder := 10 } := by decide +kernel

theorem test_witness_GearOverloadDetected :
    let with5 := fun choices => mapOrders (fun o => { o with
      settings := { o.settings with escalation := 0x20#16, classChoices := choices } }) idlePart
    let s := fun p => due p .gearOverload
    let after := fun p => partAfter .gearOverload (s p)
    (s idlePart).agenda = .gearOverload :: [] ∧ Memory.wf idlePart.exch.mem = true ∧
    (after idlePart).allot.gearNoticed = true ∧ (after idlePart).trip.latched = [] ∧
    idlePart.allot.limitRaised = false ∧ (after idlePart).raised .limit = true ∧
    (after (idlePart.setAllot { idlePart.allot with limitRaised := true })).raised .limit = false ∧
    (after (with5 0x20#16)).trip.latched = [{ cause := .gearOverload, cls := .inhibitAll }] ∧
    (after (with5 0x1F#16)).trip.latched = [{ cause := .gearOverload, cls := .rampAll }] ∧
    (after (latching [{ cause := .gearOverload, cls := .rampAll }] (with5 0#16))).trip.sequence =
      0#16 := by decide +kernel

/-! ## Vibration, records, captures -/

/-- A part whose channels are all as given, with a test in flight if one is given. -/
def channels (ch : Channel) (test : Option Selftest) (p : Part) : Part :=
  p.setVib { p.vib with channel := PerAccel.ofFun (fun _ => ch), test }

/-- A window of 512 samples with 64 and with 65 invalid ones; thresholds 0 and persistences 0, so that a valid
window is in DANGER at once. -/
theorem test_witness_WindowEnded :
    let s := fun ch => due (channels ch none idlePart) (.windowEnd .v4)
    let after := fun ch => (partAfter (.windowEnd .v4) (s ch)).vib.channel.get .v4
    let ch := { Channel.cleared .normal with accumulator := 512 * 26, invalid := 64, level := 9 }
    (s ch).agenda = .windowEnd .v4 :: [] ∧ (after ch).level = 5 ∧ (after ch).state = .danger ∧
    (after { ch with invalid := 65 }).state = .invalid ∧
    (after { ch with invalid := 65 }).level = 9 := by decide +kernel

/-- The states of a group by its channels, a fall that starts a hold, and an escalated DANGER (R144, R145,
R147). -/
theorem test_witness_GroupsFormed :
    let p := fun states : ChannelState => channels (Channel.cleared states) none
      (mapOrders (fun o => { o with settings := { o.settings with
        escalation := 4#16
        groups := PerGroup.ofFun (fun _ => { GroupParams.zero with holdCode := 1 }) } }) idlePart)
    let was := fun (x : VibState) (q : Part) => q.setVib { q.vib with
      group := PerGroup.ofFun (fun _ => { state := x, factor := 1, hold := none, holdShown := 0 }) }
    let after := fun q => (runWork .vibrationGroups q).part
    let state := fun q => (after q).vib.group.gear.state
    state (was .alert (p .disabled)) = .disabled ∧ state (p .invalid) = .lost ∧
    state (p .danger) = .danger ∧ state (p .alert) = .alert ∧ state (p .normal) = .normal ∧
    isLatched (after (p .danger)).trip.latched (.vibDanger .gear) = true ∧
    isLatched (after (p .danger)).trip.latched (.vibDanger .tyre) = false ∧
    ((after (p .danger)).seq.group, (after (p .danger)).trip.sequence) = (.tripped, 1#16) ∧
    (let every := fun choices => mapOrders (fun o => { o with settings := { o.settings with
        escalation := 15#16, classChoices := choices } }) (p .danger)
     (after (every 1#16)).trip.sequence = 4#16 ∧
     (after (every 1#16)).trip.latched.map Latched.cls = [.inhibitAll, .rampAll, .rampAll, .rampAll]) ∧
    (after (was .danger (p .alert))).vib.group.gear.hold =
      some { held := .danger, remaining := holdFrames 1 } := by decide +kernel

/-- A hold that runs: kept at code 0, ended by a rise to its rank, kept below it, and taken to the more severe
state by a fall (R145). -/
theorem test_witness_GroupsFormed_holds :
    let p := fun (code : Nat) (channel : ChannelState) (group held : VibState) =>
      let q := channels (Channel.cleared channel) none (mapOrders (fun o => { o with settings :=
        { o.settings with groups := PerGroup.ofFun (fun _ => { GroupParams.zero with holdCode := code }) } })
        idlePart)
      q.setVib { q.vib with group := PerGroup.ofFun (fun _ =>
        { state := group, factor := 1, hold := some { held, remaining := 9 }, holdShown := 0 }) }
    let hold := fun code channel group held =>
      (runWork .vibrationGroups (p code channel group held)).part.vib.group.gear.hold
    hold 0 .normal .alert .danger = some { held := .danger, remaining := 9 } ∧
    hold 1 .normal .alert .danger = some { held := .danger, remaining := holdFrames 1 } ∧
    hold 1 .normal .danger .alert = some { held := .danger, remaining := holdFrames 1 } ∧
    hold 1 .invalid .normal .alert = none ∧ hold 1 .alert .normal .alert = none ∧
    hold 1 .alert .normal .danger = some { held := .danger, remaining := 9 } ∧
    hold 1 .alert .alert .danger = some { held := .danger, remaining := 9 } := by decide +kernel

/-- A test of channel V0 in a phase. -/
def testOf (phase : TestPhase) (outcome : Nat) : Selftest :=
  { phase, count := 64, set := (PerAccel.ofFun (fun _ => false)).set .v0 true
    outcomes := (PerAccel.ofFun (fun _ => 0)).set .v0 outcome }

theorem test_witness_SelftestPhases :
    let p := fun t => mapOrders (fun o => { o with selftest := some 3 })
      (channels (Channel.cleared .normal) (some t) idlePart)
    let settling := due (p (testOf .settling 0)) .selftestSettlingEnd
    let measuring := due (p (testOf .measuring 0)) .selftestMeasuringEnd
    let ending := fun n => due (p (testOf .recovering n)) .selftestEnd
    (settling.part.vib.test = some (testOf .settling 0) ∧ Memory.wf settling.part.exch.mem = true ∧
      settling.agenda = .selftestSettlingEnd :: [] ∧
      measuring.agenda = .selftestMeasuringEnd :: [] ∧ (ending 2).agenda = .selftestEnd :: [] ∧
      settling.part.orders.selftest = some 3) ∧
    ((partAfter .selftestSettlingEnd settling).vib.test.map Selftest.phase) = some .measuring ∧
    (partAfter .selftestMeasuringEnd measuring).vib.test =
      some { testOf .recovering 1 with count := 0 } ∧
    answerOf 3 (partAfter .selftestEnd (ending 2)) = answered .fail [2#16] ∧
    answerOf 3 (partAfter .selftestEnd (ending 3)) = answered .pass [3#16] := by decide +kernel

theorem test_witness_DerateHoldEnded :
    let p := idlePart.setGroup .gear
      { state := .normal, factor := 100, hold := some { held := .danger, remaining := 0 }, holdShown := 0 }
    let s := due p (.derateHoldExpiry .gear)
    s.agenda = .derateHoldExpiry .gear :: [] ∧
    (partAfter (.derateHoldExpiry .gear) s).vib.group.gear =
      { state := .normal, factor := 32767, hold := none, holdShown := 0 } := by decide +kernel

/-- A hold in its last frame, one in its last but one, and what is published (R146). -/
theorem test_witness_DerateHoldEnded_frame :
    let p := fun n => (mapOrders (fun o => { o with settings := { o.settings with
        edges := [1, 2, 3, 4, 5, 6, 7]
        groups := PerGroup.ofFun (fun _ =>
          { GroupParams.zero with alertFactor := 20, dangerFactor := 10 }) } }) idlePart).setGroup .gear
      { state := .alert, factor := 1, hold := some { held := .danger, remaining := n }, holdShown := 0 }
    let frame := fun n => runWork (.frameOf .vibration) (p n)
    let shown := (runWork .vibrationPublish ((p 2).setAcq { idlePart.acq with driveSpeed := 3 })).part
    (frame 1).due = [.derateHoldExpiry .gear, .vibrationPublish] ∧ (frame 2).due = [.vibrationPublish] ∧
    (frame 2).part.vib.group.gear.hold = some { held := .danger, remaining := 1 } ∧
    shown.vib.group.gear.factor = 10 ∧ shown.vib.group.gear.holdShown = 2 ∧
    shown.vib.group.tyre.factor = 32767 ∧ shown.vib.band = 3 := by decide +kernel

theorem test_witness_RecordClosed :
    let s := due fillingPart .recordClose
    s.agenda = .recordClose :: [] ∧ Memory.wf s.part.exch.mem = true ∧
    (due Part.reset .recordClose).part.trip.filling = none ∧ s.part.trip.filling.isSome = true ∧
    slotState (partAfter .recordClose s) .s1 = 2#16 := by decide +kernel

/-- An engine with a block of two samples open, the second one out of range. -/
def blockPart (remaining : Nat) : Part :=
  let p := engineIn .e0 .running .immediate idlePart
  p.setCap (p.cap.set .e0 { p.cap.e0 with
    remaining, written := 1, block := [-2, 32767], notes := [{ index := 1, mark := .invalidRange }] })

theorem test_witness_CaptureBlockWritten :
    let s := fun remaining => due (blockPart remaining) (.captureBlockWrite .e0)
    let q := partAfter (.captureBlockWrite .e0) (s 1)
    (s 1).agenda = .captureBlockWrite .e0 :: [] ∧ Memory.wf (s 1).part.exch.mem = true ∧
    readWords q.exch.mem 0x4200 2 = [0xFFFE#16, 0x7FFF#16] ∧
    q.cap.e0.firstInvalid = some { index := 257, mark := .invalidRange } ∧
    agendaAfter (.captureBlockWrite .e0) (s 1) = [.captureComplete .e0] ∧
    agendaAfter (.captureBlockWrite .e0) (s 2) = [] := by decide +kernel

theorem test_witness_CaptureCompleted :
    let p := engineIn .e0 .running .immediate idlePart
    let p := p.setCap (p.cap.set .e1 { Engine.atReset with state := .armed, start := .afterOther })
    let s := due p (.captureComplete .e0)
    let q := partAfter (.captureComplete .e0) s
    s.agenda = .captureComplete .e0 :: [] ∧ Memory.wf s.part.exch.mem = true ∧
    s.part.orders.capture.get .e0 = some 2 ∧ s.part.orders.capture.get .e1 = none ∧
    q.cap.e0.state = .idle ∧ q.cap.e1.state = .running ∧
    answerOf 2 q = answered .ok [0#16, 0#16, 0#16, 0xFFFF#16] := by decide +kernel

/-- Roots beside a square, and a shift of 1, the least of the statement. -/
theorem test_witness_FloorRootAndShift :
    (1 : Nat) ≤ 1 ∧ isqrt 24 = 4 ∧ isqrt 25 = 5 ∧ roundedShift 1 1 = 1 ∧ saturate (-32768) = -32767 := by
  decide +kernel

/-! ## Frame work and hand-overs -/

/-- A part whose encoders are as given at a frame. -/
def encoders (a b : Encoder) (p : Part) : Part := p.setAcq { p.acq with enc := { a, b } }

/-- Both speeds valid, one, and none; the eighth invalid frame and the fourth overspeed frame report (R54 to
R57). -/
theorem test_witness_SpeedsFormed :
    let good := Encoder.atReset false false false
    let bad := { Encoder.atReset false false true with invalidRun := 7 }
    let work := fun a b => runWork (.frameOf .acquisition) (encoders a b idlePart)
    let acq := fun a b => (work a b).part.acq
    ((acq good good).enc.get .a).speedValid = true ∧ ((acq bad good).enc.get .a).speedValid = false ∧
    (acq good good).driveHeld = false ∧ (acq bad good).driveHeld = false ∧
    (acq bad bad).driveHeld = true ∧ (work bad good).due = [.encoderLost .a] ∧
    (let p := idlePart.setAcq { idlePart.acq with
        enc := PerMotor.both bad, driveSpeed := 9217, overspeedRun := 3 }
     (runWork (.frameOf .acquisition) p).due = [.encoderLost .a, .encoderLost .b, .overspeed]) ∧
    (let p := (encoders bad bad (idlePart.setSeq (inGroup .idle .out idlePart).seq))
     ((runWork (.frameOf .acquisition) p).part.acq.enc.get .a).invalidRun = 0) := by decide +kernel

/-- A mismatch above the tolerance at its persistence, and one at the tolerance (R58). -/
theorem test_witness_SpeedsFormed_mismatch :
    let fast := { Encoder.atReset false false false with counter := 3#32 }
    let part := mapOrders (fun o => { o with
      ratings := { o.ratings with kspd := 65535 }
      settings := { o.settings with mismatchTolerance := 2, mismatchPersistence := 1 } })
      (encoders fast (Encoder.atReset false false false) idlePart)
    let at2 := mapOrders (fun o => { o with
      settings := { o.settings with mismatchTolerance := 3 } }) part
    (runWork (.frameOf .acquisition) part).due = [.speedMismatch] ∧
    (runWork (.frameOf .acquisition) part).part.acq.mismatchRun = 1 ∧
    (runWork (.frameOf .acquisition) at2).part.acq.mismatchRun = 0 := by decide +kernel

/-- Spec 07, the worked allotment's motor B at level 23000: its limit is 1536, and an escalated motor at its trip
level is latched (R121, R126). -/
theorem test_witness_AllotmentFramed :
    let st := { Settings.resetCopy with
      thermalStart := 20000, thermalTrip := 24000, motoringLimit := 6144, capMotoring := 16384
      escalation := 0x10#16, thermalShift := 22 }
    let hot := fun level : Nat => (mapOrders (fun o => { o with settings := st })
      (inGroup .running .running idlePart)).setAllot { Part.reset.allot with
        motor := PerMotor.both (LimitRecord.atReset (65536 * level + 65535)) }
    let after := fun level => (runWork (.frameOf .allotment) (hot level)).part
    (hot 23000).motorState .b ≠ .out ∧ st.escalation.getLsbD 4 = true ∧
    (after 23000).allot.motor.b.motoring = 1536 ∧ (after 20000).allot.motor.b.motoring = 6144 ∧
    (after 24000).allot.motor.b.motoring = 0 ∧ (after 23999).trip.latched = [] ∧
    (after 24000).trip.latched = [.a, .b].map (fun m => { cause := .thermal m, cls := .rampAll }) ∧
    (after 24000).trip.sequence = 2#16 ∧
    (runWork (.frameOf .allotment) (mapOrders (fun o => { o with
      settings := { st with classChoices := 0x10#16 } }) (hot 24000))).part.trip.latched =
      [.a, .b].map (fun m => { cause := .thermal m, cls := .inhibitOne }) ∧
    (after 23000).raised .limit = true := by decide +kernel

/-- A gear overload below its persistence, at it, noticed already, and one that has ended (R132). -/
theorem test_witness_AllotmentFramed_gear :
    let work := fun (level run : Nat) (noticed : Bool) =>
      let p := mapOrders (fun o => { o with
        settings := { o.settings with gearTripLevel := level, gearPersistence := 2 } }) idlePart
      runWork (.frameOf .allotment)
        (p.setAllot { p.allot with gearRun := run, gearNoticed := noticed })
    (work 0 0 false).due = [] ∧ (work 0 1 false).due = [.gearOverload] ∧ (work 0 255 true).due = [] ∧
    (work 0 255 true).part.allot.gearRun = 255 ∧ (work 1 9 true).part.allot.gearRun = 0 ∧
    (work 1 9 true).part.allot.gearNoticed = false := by decide +kernel

/-- A scan whose first sample is invalid: the held value stays, the fourth in a row reports; a running engine's
256th sample makes its block due; a full window ends; the fast ring keeps 32 (R66, R67, R138, R166, R178). -/
theorem test_witness_ScanReceived :
    let p := idlePart.setAcq { idlePart.acq with
      scan := { value := 0, mark := .invalidLate } :: List.replicate 13 { value := 3, mark := .valid } }
    let held := p.setCtl (PerMotor.both { Control.atReset with heldA := 5, runA := 3 })
    let control := runWork (.scanTo .controlA) held
    let engine := p.setCap (p.cap.set .e1 { Engine.atReset with
      state := .running, channel := 0, block := List.replicate 255 0 })
    let capture := runWork (.scanTo .capture) engine
    let watched := mapOrders (fun o => { o with
      settings := { o.settings with enableSet := 0x10#16 } })
      (channels { Channel.cleared .normal with samples := 511, xPrev := 1 } none p)
    let ring := p.setTrip { p.trip with
      fast := List.replicate 32 { samples := [], period := 0, frame := 0 } }
    (control.part.ctl.get .a).heldA = 5 ∧ (control.part.ctl.get .a).heldUdc = 3 ∧
    control.due = [.currentSensorLost .a, .controlCompute .a] ∧
    capture.due = [.captureBlockWrite .e1] ∧
    capture.part.cap.e1.notes = [{ index := 255, mark := .invalidLate }] ∧
    (watched.settings.enables .v4 = true ∧ (watched.vib.channel.get .v4).state ≠ .disabled ∧
      watched.vib.test = none ∧ watched.settings.windowCode = watched.vib.windowCode) ∧
    (runWork (.scanTo .vibration) watched).due = [.windowEnd .v4, .vibrationGroups] ∧
    ((runWork (.scanTo .vibration) watched).part.vib.channel.get .v4).accumulator = 4 ∧
    (p.trip.fast.length < 32 ∧ ring.trip.fast.length = 32) ∧
    (runWork (.scanTo .fastRing) ring).part.trip.fast.length = 32 := by decide +kernel

/-- An apply's changes: a channel no longer enabled, one newly enabled, a new window code; and a self-test that
counts (R37, R38, R149). -/
theorem test_witness_ScanReceived_applied :
    let p := fun (set : BitVec 16) (state : ChannelState) => mapOrders (fun o => { o with
      settings := { o.settings with enableSet := set } })
      (channels { Channel.cleared state with samples := 5, alertRun := 2 } none idlePart)
    let after := fun q => runWork (.scanTo .vibration) q
    let channel := fun q => (after q).part.vib.channel.get .v0
    let recoded := fun q : Part => q.setVib { q.vib with windowCode := 3 }
    let test := fun phase => (p 1#16 .normal).setVib { (p 1#16 .normal).vib with
      test := some { testOf phase 0 with count := 63 } }
    channel (p 0#16 .alert) = Channel.cleared .disabled ∧
    (after (p 0#16 .alert)).part.raised .vibration = true ∧
    (channel (p 1#16 .disabled)).state = .normal ∧
    ((channel (p 1#16 .normal)).samples, (channel (p 1#16 .normal)).alertRun) = (6, 2) ∧
    ((channel (recoded (p 1#16 .normal))).samples, (channel (recoded (p 1#16 .normal))).alertRun) =
      (1, 0) ∧
    (after (test .settling)).due = [.selftestSettlingEnd] ∧ (channel (test .settling)).samples = 5 ∧
    (after (test .measuring)).due = [] ∧ (channel (test .measuring)).samples = 6 ∧
    (after (test .recovering)).due = [.selftestEnd] := by decide +kernel

theorem test_witness_HistoryAppended :
    let entry := historyEntry idlePart
    let full := fillingPart.setTrip { fillingPart.trip with history := List.replicate 512 entry }
    let work := runWork (.frameOf .trip) full
    Memory.wf full.exch.mem = true ∧ full.trip.history.length = 512 ∧
    fillingPart.trip.history.length < 512 ∧ idlePart.trip.filling = none ∧
    full.trip.filling.isSome = true ∧ work.due = [.recordClose] ∧
    readWord work.part.exch.mem 0x1402C = 1#16 ∧ work.part.trip.history.length = 512 := by decide +kernel

end Sys2Proof.Tests
end

section
/-! What every step keeps: canonical memory, legal routing, the latched set in rising order, bounded counts.
One rule per block replaced, then one lemma per event. -/

namespace Sys2Proof.Machine

/-! ## Routing fields -/

/-- A routing code from the two bits of its field. -/
theorem routeOf_bits (r : Word) (src : Source) :
    routeOf r src =
      (r.getLsbD (2 * src.number)).toNat + 2 * (r.getLsbD (2 * src.number + 1)).toNat := by
  have hx : ∀ x : BitVec 2, x.toNat = (x.getLsbD 0).toNat + 2 * (x.getLsbD 1).toNat := by decide
  simp [routeOf, hx]

/-- Two bits with both cleared where both are 1: the code 3 becomes 0. -/
theorem bothCleared (low high : Bool) :
    (low && (!low || !high)).toNat + 2 * (high && (!low || !high)).toNat =
      if low.toNat + 2 * high.toNat = 3 then 0 else low.toNat + 2 * high.toNat := by
  cases low <;> cases high <;> rfl

/-- Writing a routing value stores each field as written, a 3 as 0 (R9). -/
theorem routeOf_routingStored (value : Word) (src : Source) :
    routeOf (routingStored value) src =
      if routeOf value src = 3 then 0 else routeOf value src := by
  simp only [routeOf_bits, routingStored]
  cases src <;> simpa [Source.number] using bothCleared _ _

theorem routingStored_legal (value : Word) (src : Source) : routeOf (routingStored value) src ≠ 3 := by
  rw [routeOf_routingStored]
  split <;> simp_all

/-! ## The latched set -/

theorem latchedAscending_iff (ls : List Latched) :
    latchedAscending ls ↔ ls.Pairwise (fun x y => x.cause.number < y.cause.number) := by
  induction ls with
  | nil => simp [latchedAscending]
  | cons x rest ih =>
    cases rest with
    | nil => simp [latchedAscending]
    | cons y rest =>
      rw [List.pairwise_cons]
      constructor
      · rintro ⟨hxy, h⟩
        refine ⟨fun z hz => ?_, ih.1 h⟩
        rcases List.mem_cons.1 hz with rfl | hz
        · exact hxy
        · exact lt_trans hxy ((List.pairwise_cons.1 (ih.1 h)).1 z hz)
      · rintro ⟨hx, h⟩
        exact ⟨hx y (by simp), ih.2 h⟩

theorem mem_latchInto (l x : Latched) (ls : List Latched) (h : x ∈ latchInto l ls) : x = l ∨ x ∈ ls := by
  induction ls with
  | nil => simpa [latchInto] using h
  | cons y rest ih =>
    simp only [latchInto] at h
    split at h
    · simpa using h
    · split at h
      · rcases List.mem_cons.1 h with h | h
        · exact .inl h
        · exact .inr (List.mem_cons_of_mem _ h)
      · rcases List.mem_cons.1 h with h | h
        · exact .inr (h ▸ List.mem_cons_self)
        · exact (ih h).imp_right (List.mem_cons_of_mem _)

/-- A cause latched keeps the set in rising order (R155). -/
theorem latchedAscending_latchInto (l : Latched) (ls : List Latched) (h : latchedAscending ls) :
    latchedAscending (latchInto l ls) := by
  rw [latchedAscending_iff] at *
  induction ls with
  | nil => simp [latchInto]
  | cons x rest ih =>
    obtain ⟨hx, hrest⟩ := List.pairwise_cons.1 h
    simp only [latchInto]
    split
    · next hlt =>
      refine List.pairwise_cons.2 ⟨fun y hy => ?_, h⟩
      rcases List.mem_cons.1 hy with rfl | hy
      · exact hlt
      · exact lt_trans hlt (hx y hy)
    · split
      · next heq => exact List.pairwise_cons.2 ⟨fun y hy => heq ▸ hx y hy, hrest⟩
      · refine List.pairwise_cons.2 ⟨fun y hy => ?_, ih hrest⟩
        rcases mem_latchInto l y rest hy with rfl | hy
        · omega
        · exact hx y hy

theorem latchedAscending_filter (f : Latched → Bool) (ls : List Latched) (h : latchedAscending ls) :
    latchedAscending (ls.filter f) :=
  (latchedAscending_iff _).2 (((latchedAscending_iff ls).1 h).filter f)

/-! ## The bounded counts, block by block -/

def Acquisition.countsInRange (a : Acquisition) : Prop :=
  a.period ≤ 4 ∧ (∀ m, (a.enc.get m).inRange) ∧ a.overspeedRun ≤ 255 ∧ a.mismatchRun ≤ 255

def Sequencer.countsInRange (q : Sequencer) : Prop :=
  (∀ m, (q.motor.get m).stepCount ≤ 65535) ∧ q.remainder < 1000

def Allotment.countsInRange (a : Allotment) : Prop :=
  (∀ m, (a.motor.get m).thermalH < 2 ^ 32) ∧ a.gearRun ≤ 255

def Filling.countsInRange (f : Filling) : Prop := f.listed ≤ 4 ∧ f.more ≤ 255

def TripUnit.countsInRange (t : TripUnit) : Prop :=
  t.unrecorded ≤ 255 ∧ (∀ f, t.filling = some f → f.countsInRange) ∧
  t.history.length ≤ Config.historyCapacity ∧ t.fast.length ≤ Config.fastCapacity

theorem Part.countsInRange_iff (p : Part) :
    p.CountsInRange ↔ p.exch.guardCount ≤ 65535 ∧ p.orders.applyCount ≤ 65535 ∧
      p.acq.countsInRange ∧ (∀ m, (p.ctl.get m).inRange) ∧ (∀ m, (p.links.get m).inRange) ∧
      p.seq.countsInRange ∧ p.allot.countsInRange ∧ (∀ c, (p.vib.channel.get c).inRange) ∧
      p.trip.countsInRange := by
  constructor
  · rintro ⟨guard, apply, period, encoder, overspeed, mismatch, control, link, stepCount, remainder,
      thermal, gear, channel, unrecorded, followOns, history, fast⟩
    exact ⟨guard, apply, ⟨period, encoder, overspeed, mismatch⟩, control, link, ⟨stepCount, remainder⟩,
      ⟨thermal, gear⟩, channel, unrecorded, followOns, history, fast⟩
  · rintro ⟨guard, apply, ⟨period, encoder, overspeed, mismatch⟩, control, link, ⟨stepCount, remainder⟩,
      ⟨thermal, gear⟩, channel, unrecorded, followOns, history, fast⟩
    exact ⟨guard, apply, period, encoder, overspeed, mismatch, control, link, stepCount, remainder,
      thermal, gear, channel, unrecorded, followOns, history, fast⟩

/-! ## What is kept from one part to the next -/

/-- Each of the four invariants that `p` has, `q` has too: each on its own, with no help from the others. -/
structure Part.InvariantsKept (p q : Part) : Prop where
  memory : p.memoryCanonical → q.memoryCanonical
  routing : p.attn.routingLegal → q.attn.routingLegal
  latched : latchedAscending p.trip.latched → latchedAscending q.trip.latched
  counts : p.CountsInRange → q.CountsInRange

/-- The invariants and the phase are kept: true of every event but the start and the end of a reset. -/
structure Part.Preserves (p q : Part) : Prop extends p.InvariantsKept q where
  phase : q.phase = p.phase

namespace Part.InvariantsKept

variable {p q r : Part}

theorem refl (p : Part) : p.InvariantsKept p := ⟨id, id, id, id⟩

theorem trans (h : p.InvariantsKept q) (h' : q.InvariantsKept r) : p.InvariantsKept r :=
  ⟨h'.memory ∘ h.memory, h'.routing ∘ h.routing, h'.latched ∘ h.latched, h'.counts ∘ h.counts⟩

theorem setPhase (p : Part) (v : Phase) : p.InvariantsKept (p.setPhase v) :=
  ⟨id, id, id, fun h => (countsInRange_iff _).2 ((countsInRange_iff p).1 h)⟩

end Part.InvariantsKept

namespace Part.Preserves

variable {p q r : Part}

theorem refl (p : Part) : p.Preserves p := ⟨.refl p, rfl⟩

theorem trans (h : p.Preserves q) (h' : q.Preserves r) : p.Preserves r :=
  ⟨h.toInvariantsKept.trans h'.toInvariantsKept, h'.phase.trans h.phase⟩

theorem ite (c : Prop) [Decidable c] (h : p.Preserves q) (h' : p.Preserves r) :
    p.Preserves (if c then q else r) := by
  split
  · exact h
  · exact h'

/-! One rule per block replaced: what the new value must keep. -/

theorem setPins (h : p.Preserves q) (v : Pins) : p.Preserves (q.setPins v) :=
  h.trans ⟨⟨id, id, id, fun h => (countsInRange_iff _).2 ((countsInRange_iff q).1 h)⟩, rfl⟩

theorem setCap (h : p.Preserves q) (v : PerEngine Engine) : p.Preserves (q.setCap v) :=
  h.trans ⟨⟨id, id, id, fun h => (countsInRange_iff _).2 ((countsInRange_iff q).1 h)⟩, rfl⟩

theorem setMem (h : p.Preserves q) (m : Memory)
    (hm : Memory.wf q.exch.mem = true → Memory.wf m = true) : p.Preserves (q.setMem m) :=
  h.trans ⟨⟨hm, id, id, fun h => (countsInRange_iff _).2 ((countsInRange_iff q).1 h)⟩, rfl⟩

theorem setAttn (h : p.Preserves q) (v : Attention) (hv : q.attn.routingLegal → v.routingLegal) :
    p.Preserves (q.setAttn v) :=
  h.trans ⟨⟨id, hv, id, fun h => (countsInRange_iff _).2 ((countsInRange_iff q).1 h)⟩, rfl⟩

theorem setOrders (h : p.Preserves q) (v : OrderUnit)
    (hv : q.orders.applyCount ≤ 65535 → v.applyCount ≤ 65535) : p.Preserves (q.setOrders v) := by
  refine h.trans ⟨⟨id, id, id, fun h => (countsInRange_iff _).2 ?_⟩, rfl⟩
  obtain ⟨guard, apply, rest⟩ := (countsInRange_iff q).1 h
  exact ⟨guard, hv apply, rest⟩

theorem setAcq (h : p.Preserves q) (v : Acquisition)
    (hv : q.acq.countsInRange → v.countsInRange) : p.Preserves (q.setAcq v) := by
  refine h.trans ⟨⟨id, id, id, fun h => (countsInRange_iff _).2 ?_⟩, rfl⟩
  obtain ⟨guard, apply, acq, rest⟩ := (countsInRange_iff q).1 h
  exact ⟨guard, apply, hv acq, rest⟩

theorem setCtl (h : p.Preserves q) (v : PerMotor Control)
    (hv : (∀ m, (q.ctl.get m).inRange) → ∀ m, (v.get m).inRange) : p.Preserves (q.setCtl v) := by
  refine h.trans ⟨⟨id, id, id, fun h => (countsInRange_iff _).2 ?_⟩, rfl⟩
  obtain ⟨guard, apply, acq, ctl, rest⟩ := (countsInRange_iff q).1 h
  exact ⟨guard, apply, acq, hv ctl, rest⟩

theorem setLinks (h : p.Preserves q) (v : PerMotor Link)
    (hv : (∀ m, (q.links.get m).inRange) → ∀ m, (v.get m).inRange) : p.Preserves (q.setLinks v) := by
  refine h.trans ⟨⟨id, id, id, fun h => (countsInRange_iff _).2 ?_⟩, rfl⟩
  obtain ⟨guard, apply, acq, ctl, links, rest⟩ := (countsInRange_iff q).1 h
  exact ⟨guard, apply, acq, ctl, hv links, rest⟩

theorem setSeq (h : p.Preserves q) (v : Sequencer)
    (hv : q.seq.countsInRange → v.countsInRange) : p.Preserves (q.setSeq v) := by
  refine h.trans ⟨⟨id, id, id, fun h => (countsInRange_iff _).2 ?_⟩, rfl⟩
  obtain ⟨guard, apply, acq, ctl, links, seq, rest⟩ := (countsInRange_iff q).1 h
  exact ⟨guard, apply, acq, ctl, links, hv seq, rest⟩

theorem setAllot (h : p.Preserves q) (v : Allotment)
    (hv : q.allot.countsInRange → v.countsInRange) : p.Preserves (q.setAllot v) := by
  refine h.trans ⟨⟨id, id, id, fun h => (countsInRange_iff _).2 ?_⟩, rfl⟩
  obtain ⟨guard, apply, acq, ctl, links, seq, allot, rest⟩ := (countsInRange_iff q).1 h
  exact ⟨guard, apply, acq, ctl, links, seq, hv allot, rest⟩

theorem setVib (h : p.Preserves q) (v : Vibration)
    (hv : (∀ c, (q.vib.channel.get c).inRange) → ∀ c, (v.channel.get c).inRange) :
    p.Preserves (q.setVib v) := by
  refine h.trans ⟨⟨id, id, id, fun h => (countsInRange_iff _).2 ?_⟩, rfl⟩
  obtain ⟨guard, apply, acq, ctl, links, seq, allot, vib, trip⟩ := (countsInRange_iff q).1 h
  exact ⟨guard, apply, acq, ctl, links, seq, allot, hv vib, trip⟩

theorem setTrip (h : p.Preserves q) (v : TripUnit)
    (hl : latchedAscending q.trip.latched → latchedAscending v.latched)
    (hv : q.trip.countsInRange → v.countsInRange) : p.Preserves (q.setTrip v) := by
  refine h.trans ⟨⟨id, id, hl, fun h => (countsInRange_iff _).2 ?_⟩, rfl⟩
  obtain ⟨guard, apply, acq, ctl, links, seq, allot, vib, trip⟩ := (countsInRange_iff q).1 h
  exact ⟨guard, apply, acq, ctl, links, seq, allot, vib, hv trip⟩

theorem setExch (h : p.Preserves q) (v : Exchange)
    (hm : Memory.wf q.exch.mem = true → Memory.wf v.mem = true)
    (hg : q.exch.guardCount ≤ 65535 → v.guardCount ≤ 65535) : p.Preserves (q.setExch v) := by
  refine h.trans ⟨⟨hm, id, id, fun h => (countsInRange_iff _).2 ?_⟩, rfl⟩
  obtain ⟨guard, rest⟩ := (countsInRange_iff q).1 h
  exact ⟨hg guard, rest⟩

end Part.Preserves

end Sys2Proof.Machine
end

section
/-! Each operation of the blocks keeps the invariants: memory operations, orders, sequencer, trip unit. -/

namespace Sys2Proof.Machine

variable {p q : Part}

open Part.Preserves (refl)

/-! ### Values kept once per motor or channel -/

theorem PerMotor.forall_get_set {α : Type} (P : α → Prop) (x : PerMotor α) (m : Motor) (v : α)
    (hv : P v) (h : ∀ k, P (x.get k)) : ∀ k, P ((x.set m v).get k) := by
  intro k
  cases m <;> cases k <;> first | exact hv | exact h .a | exact h .b

theorem PerAccel.forall_get_set {α : Type} (P : α → Prop) (x : PerAccel α) (c : Accel) (v : α)
    (hv : P v) (h : ∀ k, P (x.get k)) : ∀ k, P ((x.set c v).get k) := by
  intro k
  by_cases hk : k = c
  · subst hk; simpa using hv
  · have : (x.set c v).get k = x.get k := by cases c <;> cases k <;> first | rfl | exact absurd rfl hk
    exact this ▸ h k

/-! ### Attention, cells and entries -/

theorem raiseSource_preserves (src : Source) (h : p.Preserves q) : p.Preserves (raiseSource src q) :=
  h.setAttn _ id

theorem finishCell_preserves (n : CellId) (code : ResultCode) (values : List Word)
    (h : p.Preserves q) : p.Preserves (finishCell n code values q) :=
  raiseSource_preserves .order (h.setMem _ (fun hm => (finishedMemory_spec _ n _ code values hm).1))

theorem setTaken_preserves (n : CellId) (h : p.Preserves q) : p.Preserves (setTaken n q) :=
  h.setMem _ (wf_writeWord _ _ _)

theorem takeCell_preserves (n : CellId) (h : p.Preserves q) : p.Preserves (takeCell n q) :=
  (h.setOrders { q.orders with taken := q.orders.taken + 1#32 } id).setMem _ (wf_writeWords _ _ _)

theorem finishRun_preserves (code : ResultCode) (h : p.Preserves q) :
    p.Preserves (finishRun code q) := by
  unfold finishRun
  split
  · exact h
  · exact finishCell_preserves _ _ _ (h.setOrders _ id)

theorem finishStop_preserves (code : ResultCode) (h : p.Preserves q) :
    p.Preserves (finishStop code q) := by
  unfold finishStop
  split
  · exact h
  · exact finishCell_preserves _ _ _ (h.setOrders _ id)

theorem finishCapture_preserves (e : EngineId) (code : ResultCode) (values : List Word)
    (h : p.Preserves q) : p.Preserves (finishCapture e code values q) := by
  unfold finishCapture
  split
  · exact h
  · exact finishCell_preserves _ _ _ (h.setOrders _ id)

theorem finishLinkTest_preserves (m : Motor) (code : ResultCode) (values : List Word)
    (h : p.Preserves q) : p.Preserves (finishLinkTest m code values q) := by
  unfold finishLinkTest
  split
  · exact h
  · exact finishCell_preserves _ _ _ (h.setOrders _ id)

theorem finishSelftest_preserves (code : ResultCode) (values : List Word)
    (h : p.Preserves q) : p.Preserves (finishSelftest code values q) := by
  unfold finishSelftest
  split
  · exact h
  · exact finishCell_preserves _ _ _ (h.setOrders _ id)

/-! ### The capture unit -/

theorem captureScan_preserves (p : Part) : p.Preserves (captureScan p).part := (refl p).setCap _

theorem captureBlockWrite_preserves (i : EngineId) (p : Part) :
    p.Preserves (captureBlockWrite i p).part :=
  ((refl p).setMem _ (wf_writeWords _ _ _)).setCap _

theorem captureComplete_preserves (i : EngineId) (p : Part) : p.Preserves (captureComplete i p) := by
  have h := raiseSource_preserves .capture
    (finishCapture_preserves i .ok (captureResults (p.cap.get i)) ((refl p).setCap
      (p.cap.set i { p.cap.get i with state := .idle, remaining := 0 })))
  exact .ite _ (h.setCap _) h

theorem cancelCapture_preserves (i : EngineId) (h : p.Preserves q) :
    p.Preserves (cancelCapture i q) := by
  have h := finishCapture_preserves i .cancelled (captureResults (q.cap.get i))
    (h.setCap (q.cap.set i (q.cap.get i).cancelled))
  exact .ite _ (finishCapture_preserves _ _ _ (h.setCap _)) h

theorem startOnTrip_preserves (h : p.Preserves q) : p.Preserves (startOnTrip q) := h.setCap _

/-! ### The sequencer -/

@[simp] theorem MotorSeq.inhibited_stepCount (s : MotorSeq) : s.inhibited.stepCount = s.stepCount := by
  unfold MotorSeq.inhibited; split <;> rfl

@[simp] theorem MotorSeq.ramped_stepCount (s : MotorSeq) (torque : Int) :
    (s.ramped torque).stepCount = s.stepCount := by
  unfold MotorSeq.ramped; repeat' split
  all_goals rfl

@[simp] theorem MotorSeq.orderedStop_stepCount (s : MotorSeq) :
    s.orderedStop.stepCount = s.stepCount := by
  unfold MotorSeq.orderedStop; split <;> rfl

@[simp] theorem MotorSeq.startStopped_stepCount (s : MotorSeq) :
    s.startStopped.stepCount = s.stepCount := by
  unfold MotorSeq.startStopped; split <;> rfl

@[simp] theorem MotorSeq.atRest_stepCount (s : MotorSeq) (state : MotorState) :
    (s.atRest state).stepCount = s.stepCount := rfl

@[simp] theorem MotorSeq.toRunning_stepCount (s : MotorSeq) : s.toRunning.stepCount = s.stepCount := rfl

@[simp] theorem MotorSeq.rampStep_stepCount (s : MotorSeq) (rate : Nat) :
    (s.rampStep rate).stepCount = s.stepCount := by
  unfold MotorSeq.rampStep; split <;> rfl

@[simp] theorem MotorSeq.published_stepCount (s : MotorSeq) (flux : Int) :
    (s.published flux).stepCount = s.stepCount := by
  unfold MotorSeq.published; split <;> rfl

@[simp] theorem releaseMotor_stepCount (ls : List Latched) (m : Motor) (s : MotorSeq) :
    (releaseMotor ls m s).stepCount = s.stepCount := by
  unfold releaseMotor; split <;> rfl

/-- A magnetizing step counts up to 65535 (R100). -/
theorem MotorSeq.magnetizingStep_stepCount_le (s : MotorSeq) (flux : Int) (time : Nat)
    (h : s.stepCount ≤ 65535) : (s.magnetizingStep flux time).stepCount ≤ 65535 := by
  unfold MotorSeq.magnetizingStep
  split
  · exact Nat.min_le_left _ _
  · exact h

/-- The sequencer's counts stay in range where no motor's step count and no remainder grows. -/
theorem Sequencer.countsInRange_mono {x y : Sequencer}
    (hm : ∀ m, (y.motor.get m).stepCount ≤ (x.motor.get m).stepCount)
    (hr : y.remainder ≤ x.remainder) (h : x.countsInRange) : y.countsInRange :=
  ⟨fun m => (hm m).trans (h.1 m), hr.trans_lt h.2⟩

/-- A motor replaced by one with a step count in range. -/
theorem Sequencer.countsInRange_setMotor {x : Sequencer} (m : Motor) (s : MotorSeq)
    (hs : (x.motor.get m).stepCount ≤ 65535 → s.stepCount ≤ 65535) (h : x.countsInRange) :
    (x.setMotor m s).countsInRange :=
  ⟨PerMotor.forall_get_set (fun s => s.stepCount ≤ 65535) x.motor m s (hs (h.1 m)) h.1, h.2⟩

theorem inhibitAllOrder_preserves (h : p.Preserves q) : p.Preserves (inhibitAllOrder q) :=
  h.setSeq _ (Sequencer.countsInRange_mono (fun m => by simp) le_rfl)

theorem rampAllOrder_preserves (h : p.Preserves q) : p.Preserves (rampAllOrder q) :=
  h.setSeq _ (Sequencer.countsInRange_mono (fun m => by cases m <;> simp [PerMotor.get]) le_rfl)

theorem inhibitOneOrder_preserves (m : Motor) (h : p.Preserves q) :
    p.Preserves (inhibitOneOrder m q) := by
  unfold inhibitOneOrder
  split
  · exact h
  · have hm : q.seq.countsInRange → (q.seq.setMotor m (q.seq.motor.get m).inhibited).countsInRange :=
      Sequencer.countsInRange_setMotor m _ (by simp)
    split
    · exact h.setSeq _ hm
    · exact h.setSeq _ (fun hq => Sequencer.countsInRange_setMotor m.other _ (by simp [Sequencer.groupTripped])
        (hm hq))

theorem beginMagnetizing_preserves (joining : PerMotor Bool) (h : p.Preserves q) :
    p.Preserves (beginMagnetizing joining q) := by
  refine h.setSeq _ (Sequencer.countsInRange_mono (fun m => ?_) le_rfl)
  cases m <;> simp only [PerMotor.get] <;> split <;> simp [MotorSeq.magnetizingFresh]

theorem stopHandOver_preserves (h : p.Preserves q) : p.Preserves (stopHandOver q).1 := by
  unfold stopHandOver
  split
  · exact h.setSeq _ (Sequencer.countsInRange_mono (fun m => by simp) le_rfl)
  · exact h.setSeq _ (Sequencer.countsInRange_mono (fun m => by simp) le_rfl)
  · exact h.setSeq _ (Sequencer.countsInRange_mono (fun m => by simp) le_rfl)
  · exact h
  · exact h

theorem motorInHandOver_preserves (m : Motor) (h : p.Preserves q) :
    p.Preserves (motorInHandOver m q) :=
  h.setSeq _ (Sequencer.countsInRange_setMotor m _ id)

theorem outRunsHeld_preserves (m : Motor) (h : p.Preserves q) : p.Preserves (outRunsHeld m q) := by
  rw [outRunsHeld_eq]
  refine (h.setAcq _ ?_).setCtl _ ?_
  · rintro ⟨hperiod, henc, hruns⟩
    exact ⟨hperiod, PerMotor.forall_get_set _ _ m _ ⟨(henc m).1, Nat.zero_le _⟩ henc, hruns⟩
  · exact fun hctl => PerMotor.forall_get_set _ _ m _ ⟨Nat.zero_le _, Nat.zero_le _⟩ hctl

theorem motorOutHandOver_preserves (m : Motor) (h : p.Preserves q) :
    p.Preserves (motorOutHandOver m q) :=
  outRunsHeld_preserves m (h.setSeq _ (Sequencer.countsInRange_setMotor m _ id))

theorem releaseStep_preserves (p : Part) : p.Preserves (releaseStep p) :=
  .ite _
    ((refl p).setSeq _ (Sequencer.countsInRange_mono
      (fun m => by cases m <;> simp [PerMotor.get, Sequencer.loopCleared]) (Nat.zero_le _)))
    ((refl p).setSeq _ (Sequencer.countsInRange_mono
      (fun m => by cases m <;> simp [PerMotor.get]) le_rfl))

theorem sequencerFrame_preserves (p : Part) : p.Preserves (sequencerFrame p).part :=
  (releaseStep_preserves p).setSeq _ (Sequencer.countsInRange_mono (fun m => by simp) le_rfl)

theorem tripRampEnd_preserves (m : Motor) (p : Part) : p.Preserves (tripRampEnd m p) :=
  (refl p).setSeq _ (Sequencer.countsInRange_setMotor m _ id)

theorem startStep_preserves (p : Part) : p.Preserves (startStep p).1 := by
  unfold startStep
  split
  · split
    · exact finishRun_preserves .ok ((refl p).setSeq _ id)
    · split
      · exact (refl p).setSeq _ id
      · exact refl p
      · exact refl p
  · exact refl p

theorem sequencerStart_preserves (p : Part) : p.Preserves (sequencerStart p).part :=
  (startStep_preserves p).setSeq _ (fun h => ⟨fun m => by
    rw [PerMotor.get_map]
    exact MotorSeq.magnetizingStep_stepCount_le _ _ _ (h.1 m), h.2⟩)

theorem magnetizingRampFinished_preserves (p : Part) : p.Preserves (magnetizingRampFinished p) := by
  unfold magnetizingRampFinished
  dsimp only
  split
  · refine (refl p).setSeq _ (Sequencer.countsInRange_mono (fun m => ?_) (Nat.zero_le _))
    simp only [PerMotor.get_map]
    split <;> simp
  · have h : p.Preserves (p.setSeq { p.seq with motor := p.seq.motor.map (fun s =>
        if s.magnetized p.settings.magnetizingTime then s.toRunning else s) }) := by
      refine (refl p).setSeq _ (Sequencer.countsInRange_mono (fun m => ?_) le_rfl)
      simp only [PerMotor.get_map]
      split <;> simp
    split
    · exact .ite _ (finishRun_preserves .ok h) h
    · exact h

/-- The remainder of the reference ramp stays below 1000 (R102). -/
theorem referenceStep_remainder (q : Sequencer) (target : Int) (up down : Nat) :
    (referenceStep q target up down).2.1 < 1000 := by
  unfold referenceStep
  refine iteInduction (motive := fun r : Int × Nat × Bool => r.2.1 < 1000)
    (fun _ => Nat.zero_lt_succ _) (fun _ => ?_)
  exact iteInduction (motive := fun r : Int × Nat × Bool => r.2.1 < 1000)
    (fun _ => Nat.zero_lt_succ _) (fun _ => Nat.mod_lt _ (by decide))

theorem speedLoop_preserves (p : Part) : p.Preserves (speedLoop p) :=
  (refl p).setSeq _ (fun h => ⟨h.1, referenceStep_remainder _ _ _ _⟩)

theorem stopStep_preserves (h : p.Preserves q) : p.Preserves (stopStep q) := by
  refine .ite _ (finishStop_preserves .ok (h.setSeq _ ?_)) h
  refine Sequencer.countsInRange_mono (fun m => ?_) (Nat.zero_le _)
  simp only [PerMotor.get_map]
  split <;> simp

theorem sequencerLoop_preserves (failed : Bool) (p : Part) :
    p.Preserves (sequencerLoop failed p).part :=
  (stopStep_preserves (.ite _ (speedLoop_preserves p) (refl p))).setSeq _
    (Sequencer.countsInRange_mono (fun m => by simp) le_rfl)

/-! ### The trip unit -/

theorem appendRing_length {α : Type} (capacity : Nat) (ring : List α) (x : α) :
    (appendRing capacity ring x).length ≤ capacity := by
  simp only [appendRing, List.length_drop, List.length_append, List.length_singleton]
  omega

theorem recordClose_preserves (h : p.Preserves q) : p.Preserves (recordClose q) := by
  unfold recordClose
  split
  · exact h
  · refine raiseSource_preserves .record ((h.setMem _ (wf_writeWord _ _ _)).setTrip _ id ?_)
    rintro ⟨hun, _, hrings⟩
    exact ⟨hun, by simp, hrings⟩

theorem openRecord_preserves (s : SlotId) (header : List (Nat × Word)) (h : p.Preserves q) :
    p.Preserves (openRecord s header q) := by
  have hopen : ∀ (mem : Memory) (f : Filling),
      (Memory.wf q.exch.mem = true → Memory.wf mem = true) → f.countsInRange →
      p.Preserves ((q.setMem mem).setTrip { q.trip with filling := some f }) := by
    intro mem f hm hf
    refine (h.setMem mem hm).setTrip _ id ?_
    rintro ⟨hun, _, hrings⟩
    exact ⟨hun, by rintro g ⟨rfl⟩; exact hf, hrings⟩
  have hclose := fun mem f hm hf => Part.Preserves.ite (q.settings.postTrip = 0)
    (recordClose_preserves (hopen mem f hm hf)) (hopen mem f hm hf)
  exact hclose _ _ (fun hm => wf_writeWord _ _ _ (wf_writeWords _ _ _ (wf_writeWord _ _ _
    (wf_writeWords _ _ _ (wf_zeroRange _ _ _ (wf_writeFields _ _ _ (wf_zeroRange _ _ _
      (wf_writeWord _ _ _ hm)))))))) ⟨Nat.zero_le _, Nat.zero_le _⟩

theorem addFollowOn_preserves (f : Filling) (c : Cause) (cls : TripClass) (h : p.Preserves q)
    (hf : q.trip.filling = some f) : p.Preserves (addFollowOn f c cls q) := by
  unfold addFollowOn
  dsimp only
  split
  · next hlisted =>
    refine (h.setMem _ (fun hm => wf_writeWord _ _ _ (wf_writeWords _ _ _ hm))).setTrip _ id ?_
    rintro ⟨hun, hfill, hrings⟩
    refine ⟨hun, ?_, hrings⟩
    rintro g ⟨rfl⟩
    exact ⟨hlisted, (hfill f hf).2⟩
  · refine (h.setMem _ (wf_writeWord _ _ _)).setTrip _ id ?_
    rintro ⟨hun, hfill, hrings⟩
    refine ⟨hun, ?_, hrings⟩
    rintro g ⟨rfl⟩
    exact ⟨(hfill f hf).1, Nat.min_le_left _ _⟩

theorem recordTrip_preserves (c : Cause) (cls : TripClass) (header : List (Nat × Word))
    (h : p.Preserves q) : p.Preserves (recordTrip c cls header q) := by
  unfold recordTrip
  split
  · next f hf => exact addFollowOn_preserves f c cls h hf
  · split
    · exact openRecord_preserves _ _ h
    · exact h.setTrip _ id (fun ht => ⟨Nat.min_le_left _ _, ht.2⟩)

theorem tripFrame_preserves (p : Part) : p.Preserves (tripFrame p).part := by
  have h : p.Preserves (p.setTrip { p.trip with
      history := appendRing Config.historyCapacity p.trip.history (historyEntry p) }) :=
    (refl p).setTrip _ id (fun ⟨hun, hfill, _, hfast⟩ =>
      ⟨hun, hfill, by simpa using appendRing_length _ _ _, hfast⟩)
  unfold tripFrame
  dsimp only
  generalize p.setTrip _ = r at h ⊢
  split
  · exact h
  · next f hf =>
    refine (h.setMem _ (fun hm => wf_writeWord _ _ _ (wf_writeWords _ _ _ hm))).setTrip _ id ?_
    rintro ⟨hun, hfill, hrings⟩
    refine ⟨hun, ?_, hrings⟩
    rintro g ⟨rfl⟩
    exact hfill f hf

theorem fastScan_preserves (p : Part) : p.Preserves (fastScan p) :=
  (refl p).setTrip _ id
    (fun ⟨hun, hfill, hhistory, _⟩ => ⟨hun, hfill, hhistory, appendRing_length _ _ _⟩)

theorem latchCause_preserves (c : Cause) (cls : TripClass) (h : p.Preserves q) :
    p.Preserves (latchCause c cls q) :=
  h.setTrip _ (latchedAscending_latchInto _ _) id

theorem tripOrder_preserves (c : Cause) (cls : TripClass) (h : p.Preserves q) :
    p.Preserves (tripOrder c cls q) := by
  unfold tripOrder
  split
  · exact inhibitAllOrder_preserves h
  · exact rampAllOrder_preserves h
  · split
    · exact inhibitOneOrder_preserves _ h
    · exact h

theorem ordersAtTrip_preserves (c : Cause) (before : Part) (h : p.Preserves q) :
    p.Preserves (ordersAtTrip c before q) := by
  refine finishStop_preserves .abortedByTrip ?_
  split
  · exact .ite _ (finishRun_preserves .abortedByTrip h) h
  · exact h

theorem tripEvent_preserves (c : Cause) (cls : TripClass) (h : p.Preserves q) :
    p.Preserves (tripEvent c cls q) :=
  raiseSource_preserves .trip (startOnTrip_preserves (recordTrip_preserves c cls _
    (ordersAtTrip_preserves c _ (tripOrder_preserves c cls (latchCause_preserves c cls h)))))

theorem report_preserves (c : Cause) (h : p.Preserves q) : p.Preserves (report c q) :=
  .ite _ h (tripEvent_preserves c _ h)

theorem raiseHalt_preserves (h : p.Preserves q) : p.Preserves (raiseHalt q) :=
  inhibitAllOrder_preserves (h.setTrip _ (latchedAscending_latchInto _ _) id)

theorem clearLatched_preserves (s : ClearScope) (h : p.Preserves q) : p.Preserves (clearLatched s q) :=
  h.setTrip _ (latchedAscending_filter _ _) id

end Sys2Proof.Machine
end

section
/-! Each operation of the blocks keeps the invariants: acquisition, control, links, allotment, vibration, host
port, orders and resets; then every event and every step. -/

namespace Sys2Proof.Machine

variable {p q : Part}

open Part.Preserves (refl)

theorem countUp_le (top n : Nat) : countUp top n ≤ top := Nat.min_le_left _ _

/-- A run count that is cleared or goes up by one stays within its bound. -/
theorem ite_countUp_le (c : Prop) [Decidable c] (top n : Nat) : (if c then countUp top n else 0) ≤ top := by
  split
  · exact countUp_le top n
  · exact Nat.zero_le top

theorem ite_countUp_le' (c : Prop) [Decidable c] (top n : Nat) : (if c then 0 else countUp top n) ≤ top := by
  split
  · exact Nat.zero_le top
  · exact countUp_le top n

/-! ### Acquisition -/

/-- Acquisition values that leave the period and the runs as they are, with encoders in range. -/
theorem Acquisition.countsInRange_enc {x y : Acquisition} (hp : y.period ≤ x.period)
    (ho : y.overspeedRun ≤ x.overspeedRun) (hr : y.mismatchRun ≤ x.mismatchRun)
    (he : (∀ m, (x.enc.get m).inRange) → ∀ m, (y.enc.get m).inRange) (h : x.countsInRange) :
    y.countsInRange :=
  ⟨hp.trans h.1, he h.2.1, ho.trans h.2.2.1, hr.trans h.2.2.2⟩

/-- One encoder replaced by one in range. -/
theorem setEncoder_preserves (m : Motor) (e : Encoder) (h : p.Preserves q)
    (he : (q.acq.enc.get m).inRange → e.inRange) :
    p.Preserves (q.setAcq { q.acq with enc := q.acq.enc.set m e }) :=
  h.setAcq _ (Acquisition.countsInRange_enc le_rfl le_rfl le_rfl
    (fun henc => PerMotor.forall_get_set _ _ m e (he (henc m)) henc))

theorem conversionSlotEnd_preserves (input : Option Int) (p : Part) :
    p.Preserves (conversionSlotEnd input p).part := by
  unfold conversionSlotEnd
  split
  · exact refl p
  · dsimp only
    have h := fun v hv => (refl p).setAcq v hv
    split
    · exact .ite _ (report_preserves _ (h _ id)) (h _ id)
    · exact h _ id

theorem endSlotsLate_preserves (p : Part) : p.Preserves (endSlotsLate p).part := by
  unfold endSlotsLate
  split
  · exact refl p
  · exact (refl p).setAcq _ id

theorem periodExpiry_preserves (p : Part) : p.Preserves (periodExpiry p).part := by
  have h : p.Preserves (p.setAcq { p.acq with
      period := p.acq.period % 4 + 1, slot := some 0, converted := [] }) :=
    (refl p).setAcq _ (fun h => ⟨Nat.mod_lt p.acq.period (by decide), h.2⟩)
  exact h.setLinks _ (fun h m => by rw [PerMotor.get_map]; exact h m)

theorem scanComplete_preserves (order : List ScanBlock) (p : Part) :
    p.Preserves (scanComplete order p).part := (refl p).setAcq _ id

theorem encoderTransition_preserves (m : Motor) (a b : Bool) (p : Part) :
    p.Preserves (encoderTransition m a b p).part := by
  unfold encoderTransition
  dsimp only
  split
  · exact setEncoder_preserves m _ (refl p) id
  · split
    · exact refl p
    · exact setEncoder_preserves m _ (refl p) (fun h => ⟨countUp_le 16 _, h.2⟩)
    · exact setEncoder_preserves m _ (refl p) (fun h => ⟨countUp_le 16 _, h.2⟩)
    · exact setEncoder_preserves m _ (refl p) (fun h => ⟨Nat.zero_le _, h.2⟩)

theorem encoderValidRegained_preserves (m : Motor) (p : Part) :
    p.Preserves (encoderValidRegained m p) := setEncoder_preserves m _ (refl p) id

theorem lineBreakAsserted_preserves (m : Motor) (p : Part) :
    p.Preserves (lineBreakAsserted m p) := by
  refine setEncoder_preserves m _ (refl p) (fun h => ?_)
  split
  · exact ⟨Nat.zero_le _, h.2⟩
  · exact h

theorem lineBreakReleased_preserves (m : Motor) (p : Part) :
    p.Preserves (lineBreakReleased m p) := setEncoder_preserves m _ (refl p) id

/-- A frame event keeps an encoder's runs in range (R55). -/
theorem Encoder.frame_inRange (e : Encoder) (kspd : Nat) (out : Bool) (h : e.inRange) :
    (e.frame kspd out).inRange := ⟨h.1, ite_countUp_le' _ 255 _⟩

theorem acquisitionFrame_preserves (p : Part) : p.Preserves (acquisitionFrame p).part := by
  refine (refl p).setAcq _ (fun h => ⟨h.1, fun m => ?_, ite_countUp_le _ 255 _, ite_countUp_le _ 255 _⟩)
  cases m
  · exact Encoder.frame_inRange _ _ _ (h.2.1 .a)
  · exact Encoder.frame_inRange _ _ _ (h.2.1 .b)

theorem assertTestLines_preserves (set : PerAccel Bool) (h : p.Preserves q) :
    p.Preserves (assertTestLines set q) := h.setAcq _ id

/-! ### Links and current control -/

theorem setLink_preserves (m : Motor) (l : Link) (h : p.Preserves q)
    (hl : (q.links.get m).inRange → l.inRange) : p.Preserves (q.setLink m l) :=
  h.setLinks _ (fun hq => PerMotor.forall_get_set _ _ m l (hl (hq m)) hq)

theorem sendFrame_preserves (m : Motor) (h : p.Preserves q) : p.Preserves (sendFrame m q) := by
  unfold sendFrame
  dsimp only
  split
  · exact h
  all_goals exact setLink_preserves m _ h (fun hl => ⟨Nat.mod_lt _ (by decide), hl.2⟩)

theorem replyReceived_preserves (m : Motor) (words : List Word) (p : Part) :
    p.Preserves (replyReceived m words p) := by
  unfold replyReceived
  dsimp only
  split
  · exact refl p
  · exact .ite _ (refl p) (setLink_preserves m _ (refl p) id)

theorem finishTest_preserves (m : Motor) (o : ReplyOutcome) (h : p.Preserves q) :
    p.Preserves (finishTest m o q) := by
  unfold finishTest
  split <;> exact finishLinkTest_preserves _ _ _ h

/-- The judgement of a reply keeps a link's counts in range (R86 to R88). -/
theorem Link.judged_inRange (l : Link) (o : ReplyOutcome) (h : l.inRange) : (l.judged o).inRange := by
  obtain ⟨hseq, hsync, hloss⟩ := h
  rcases o with ⟨_ | _ | _, code, flag⟩ | _ | _
  all_goals
    unfold Link.judged
    cases l.state
  all_goals
    refine ⟨hseq, ?_, ?_⟩
    all_goals
      simp only [ReplyOutcome.isGood, countUp]
      grind

theorem replyWindowClose_preserves (m : Motor) (p : Part) :
    p.Preserves (replyWindowClose m p).part := by
  unfold replyWindowClose
  dsimp only
  split
  · exact refl p
  · next w _ =>
    have hj := setLink_preserves m _ (refl p) (Link.judged_inRange (p.links.get m) (judgeReply w))
    have hr : ∀ r, p.Preserves r → p.Preserves (if w.test then finishTest m (judgeReply w) r else r) :=
      fun r h => .ite _ (finishTest_preserves m _ h) h
    refine hr _ ?_
    split
    · exact .ite _ hj (report_preserves _ hj)
    · exact hj

theorem linkUp_preserves (m : Motor) (p : Part) : p.Preserves (linkUp m p) :=
  raiseSource_preserves .link (setLink_preserves m _ (refl p) (fun h => ⟨h.1, h.2.1, Nat.zero_le _⟩))

theorem linkLost_preserves (m : Motor) (p : Part) : p.Preserves (linkLost m p) := by
  have h : p.Preserves (raiseSource .link (p.setLink m { p.links.get m with state := .lost })) :=
    raiseSource_preserves .link (setLink_preserves m _ (refl p) id)
  exact .ite _ h (report_preserves _ h)

theorem linkTestHandOver_preserves (m : Motor) (h : p.Preserves q) :
    p.Preserves (linkTestHandOver m q) := setLink_preserves m _ h id

theorem linkResetHandOver_preserves (m : Motor) (h : p.Preserves q) :
    p.Preserves (linkResetHandOver m q) := by
  have hl := setLink_preserves m { q.links.get m with
    state := .syncing, syncRun := 0, lossCount := 0, window := none, testPending := false } h
    (fun h => ⟨h.1, Nat.zero_le _, Nat.zero_le _⟩)
  unfold linkResetHandOver
  dsimp only
  split
  · exact raiseSource_preserves .link hl
  · exact raiseSource_preserves .link hl
  all_goals exact hl

/-- One motor's control values replaced by values in range. -/
theorem setControl_preserves (m : Motor) (c : Control) (h : p.Preserves q)
    (hc : (q.ctl.get m).inRange → c.inRange) : p.Preserves (q.setCtl (q.ctl.set m c)) :=
  h.setCtl _ (fun hq => PerMotor.forall_get_set _ _ m c (hc (hq m)) hq)

theorem controlSamples_preserves (m : Motor) (p : Part) : p.Preserves (controlSamples m p).part :=
  setControl_preserves m _ (refl p) (fun _ => ⟨ite_countUp_le' _ 255 _, ite_countUp_le' _ 255 _⟩)

theorem computeEnergized_runs (p : Part) (m : Motor) (c : Control) :
    (computeEnergized p m c).runA = c.runA ∧ (computeEnergized p m c).runB = c.runB := by
  have h : (c.energizing p.orders.ratings).runA = c.runA ∧
      (c.energizing p.orders.ratings).runB = c.runB := by
    unfold Control.energizing
    split <;> exact ⟨rfl, rfl⟩
  exact h

theorem controlCompute_preserves (m : Motor) (p : Part) : p.Preserves (controlCompute m p) := by
  refine sendFrame_preserves m (setControl_preserves m _ (refl p) (fun h => ?_))
  split
  · obtain ⟨ha, hb⟩ := computeEnergized_runs p m (p.ctl.get m)
    exact ⟨ha ▸ h.1, hb ▸ h.2⟩
  · exact h

/-! ### Torque allotment -/

theorem heatingInput_le (state : MotorState) (id iq rated : Int) :
    heatingInput state id iq rated ≤ 65535 := by
  unfold heatingInput
  split
  · exact min_le_left _ _
  · decide

/-- The thermal state moves from `h` towards the input and never beyond the larger of the two (R125). -/
theorem thermalStep_lt (h : Nat) (input : Int) (shift : Nat) (hh : h < 2 ^ 32) (hi : input ≤ 65535) :
    thermalStep h input shift < 2 ^ 32 := by
  unfold thermalStep
  have hpos : (0 : Int) < 2 ^ shift := by positivity
  generalize (2 : Int) ^ shift = d at hpos
  have hd : (input * 65536 - h) / d ≤ max (input * 65536 - h) 0 := by
    rcases le_total 0 (input * 65536 - (h : Int)) with hx | hx
    · exact (Int.ediv_le_self d hx).trans (le_max_left _ _)
    · exact (Int.ediv_nonpos_of_nonpos_of_neg hx hpos).trans (le_max_right _ _)
  omega

theorem limitRecord_thermal_lt (p : Part) (m : Motor) (motoring : Bool)
    (h : (p.allot.motor.get m).thermalH < 2 ^ 32) :
    (limitRecord p m motoring).thermalH < 2 ^ 32 :=
  thermalStep_lt _ _ _ h (heatingInput_le _ _ _ _)

theorem reportThermal_preserves (m : Motor) (h : p.Preserves q) : p.Preserves (reportThermal m q) :=
  .ite _ (report_preserves _ h) h

theorem allotmentFrame_preserves (p : Part) : p.Preserves (allotmentFrame p).part := by
  have h : ∀ v : Allotment, (p.allot.countsInRange → v.countsInRange) → ∀ changed : Bool,
      p.Preserves (reportThermal .b (reportThermal .a
        (if changed then raiseSource .limit (p.setAllot v) else p.setAllot v))) :=
    fun v hv changed => reportThermal_preserves .b (reportThermal_preserves .a
      (.ite _ (raiseSource_preserves .limit ((refl p).setAllot v hv)) ((refl p).setAllot v hv)))
  refine h _ (fun hp => ⟨fun m => ?_, ite_countUp_le _ 255 _⟩) _
  cases m
  · exact limitRecord_thermal_lt p .a true (hp.1 .a)
  · exact limitRecord_thermal_lt p .b true (hp.1 .b)

theorem gearOverload_preserves (p : Part) : p.Preserves (gearOverload p) :=
  .ite _ (report_preserves _ ((refl p).setAllot _ id))
    (.ite _ ((refl p).setAllot _ id) (raiseSource_preserves .limit ((refl p).setAllot _ id)))

end Sys2Proof.Machine
end

section
/-! Each operation of the vibration watch, the host port, the orders and the resets keeps the invariants; then
every event, every command and every step. -/

namespace Sys2Proof.Machine

variable {p q : Part}

/-! ### Vibration watch -/

theorem Channel.windowCleared_inRange (c : Channel) : c.windowCleared.inRange :=
  ⟨Nat.zero_le _, Nat.zero_le _⟩

theorem Channel.cleared_inRange (state : ChannelState) : (Channel.cleared state).inRange :=
  ⟨Nat.zero_le _, Nat.zero_le _⟩

theorem Channel.applied_inRange (c : Channel) (enabled changed : Bool) (h : c.inRange) :
    (c.applied enabled changed).inRange := by
  unfold Channel.applied
  split
  · exact h
  all_goals first
    | exact Channel.cleared_inRange _
    | exact iteInduction (fun _ => Channel.windowCleared_inRange c) (fun _ => h)

theorem channelScan_inRange (p : Part) (c : Accel) (ch : Channel) (h : ch.inRange) :
    (channelScan p c ch).inRange := by
  unfold channelScan
  dsimp only
  split
  · exact h
  · split
    · exact h
    · split <;> exact h

/-- A window's end keeps the two runs within their bound (R141). -/
theorem Channel.windowEnded_inRange (c : Channel) (s : Settings) (g : VibGroup) (speed : Int) :
    (c.windowEnded s g speed).inRange :=
  iteInduction (motive := Channel.inRange) (fun _ => ⟨Nat.zero_le _, Nat.zero_le _⟩)
    (fun _ => ⟨ite_countUp_le _ 15 _, ite_countUp_le _ 15 _⟩)

theorem vibrationScan_preserves (p : Part) : p.Preserves (vibrationScan p).part := by
  have h : ∀ v : Vibration, ((∀ c, (p.vib.channel.get c).inRange) → ∀ c, (v.channel.get c).inRange) →
      ∀ changed : Bool, p.Preserves (if changed then raiseSource .vibration (p.setVib v) else p.setVib v) :=
    fun v hv changed => .ite _ (raiseSource_preserves _ ((Part.Preserves.refl p).setVib v hv))
      ((Part.Preserves.refl p).setVib v hv)
  refine h _ (fun hp c => ?_) _
  simp only [PerAccel.get_ofFun]
  exact channelScan_inRange _ _ _ (Channel.applied_inRange _ _ _ (hp c))

theorem windowEnd_preserves (c : Accel) (p : Part) : p.Preserves (windowEnd c p) := by
  have h : p.Preserves (p.setChannel c
      ((p.vib.channel.get c).windowEnded p.settings c.group p.acq.driveSpeed)) :=
    (Part.Preserves.refl p).setVib _ (PerAccel.forall_get_set _ _ c _ (Channel.windowEnded_inRange _ _ _ _))
  exact .ite _ h (raiseSource_preserves .vibration h)

theorem setGroup_preserves (g : VibGroup) (w : GroupWatch) (h : p.Preserves q) :
    p.Preserves (q.setGroup g w) := h.setVib _ id

theorem groupFormed_preserves (g : VibGroup) (h : p.Preserves q) : p.Preserves (groupFormed q g) :=
  .ite _ h (.ite _ (report_preserves _ (setGroup_preserves g _ h)) (setGroup_preserves g _ h))

theorem foldl_groupFormed_preserves (gs : List VibGroup) (h : p.Preserves q) :
    p.Preserves (gs.foldl groupFormed q) := by
  induction gs generalizing q with
  | nil => exact h
  | cons g gs ih => exact ih (groupFormed_preserves g h)

theorem vibrationGroups_preserves (p : Part) : p.Preserves (vibrationGroups p) :=
  foldl_groupFormed_preserves _ (.refl p)

theorem vibrationFrame_preserves (p : Part) : p.Preserves (vibrationFrame p).part :=
  (Part.Preserves.refl p).setVib _ id

theorem derateHoldExpiry_preserves (g : VibGroup) (p : Part) : p.Preserves (derateHoldExpiry g p) :=
  setGroup_preserves g _ (.refl p)

theorem vibrationPublish_preserves (p : Part) : p.Preserves (vibrationPublish p) := (Part.Preserves.refl p).setVib _ id

theorem startSelftest_preserves (h : p.Preserves q) : p.Preserves (startSelftest q) := by
  refine assertTestLines_preserves _ (h.setVib _ (fun hq c => ?_))
  simp only [PerAccel.get_ofFun]
  split
  · exact Channel.windowCleared_inRange _
  · exact hq c

theorem selftestSettlingEnd_preserves (p : Part) : p.Preserves (selftestSettlingEnd p) := by
  unfold selftestSettlingEnd
  split
  · exact .refl p
  · exact (Part.Preserves.refl p).setVib _ id

theorem selftestMeasuringEnd_preserves (p : Part) : p.Preserves (selftestMeasuringEnd p) := by
  unfold selftestMeasuringEnd
  split
  · exact .refl p
  · refine assertTestLines_preserves _ ((Part.Preserves.refl p).setVib _ (fun hp c => ?_))
    simp only [PerAccel.get_ofFun]
    split <;> exact hp c

theorem selftestEnd_preserves (p : Part) : p.Preserves (selftestEnd p) := by
  unfold selftestEnd
  split
  · exact .refl p
  · refine finishSelftest_preserves _ _ ((Part.Preserves.refl p).setVib _ (fun hp c => ?_))
    simp only [PerAccel.get_ofFun]
    split
    · exact Channel.windowCleared_inRange _
    · exact hp c

/-! ### The host port -/

theorem hostWrite_preserves (word : BitVec 16) (value : Word) (p : Part) :
    p.Preserves (hostWrite word value p) :=
  .ite _ (.ite _ ((Part.Preserves.refl p).setMem _ (wf_writeWord _ _ _))
    (raiseSource_preserves .guard ((Part.Preserves.refl p).setExch _ id (fun _ => countUp_le 65535 _)))) (.refl p)

theorem attentionWrite_preserves (value : Word) (p : Part) : p.Preserves (attentionWrite value p) :=
  .ite _ ((Part.Preserves.refl p).setAttn _ id) (.refl p)

theorem routingWrite_preserves (value : Word) (p : Part) : p.Preserves (routingWrite value p) :=
  .ite _ ((Part.Preserves.refl p).setAttn _ (fun _ => routingStored_legal value)) (.refl p)

theorem liveBlockWrite_preserves (p : Part) : p.Preserves (liveBlockWrite p) :=
  (Part.Preserves.refl p).setMem _ (fun hm => wf_writeWords _ _ _ (wf_writeFields _ _ _ (wf_zeroRange _ _ _
    (wf_writeWords _ _ _ hm))))

/-! ### Orders -/

theorem refuse_preserves (n : CellId) (code : ResultCode) (h : p.Preserves q) :
    p.Preserves (refuse n code q) := finishCell_preserves n code [] h

theorem adoptSettings_preserves (page : Nat) (s : Settings) (h : p.Preserves q) :
    p.Preserves (adoptSettings page s q) := by
  have hn : q.orders.applyCount ≤ 65535 → nextApply q.orders.applyCount ≤ 65535 := by
    unfold nextApply
    split <;> omega
  exact (h.setOrders { q.orders with
    settings := s, settingsApplied := true, activePage := page
    applyCount := nextApply q.orders.applyCount } hn).setSeq _ id

theorem orderApplySettings_preserves (n : CellId) (p : Part) :
    p.Preserves (orderApplySettings n p) := by
  have h := takeCell_preserves n (.refl p)
  unfold orderApplySettings
  dsimp only
  split
  · exact refuse_preserves n _ h
  · refine .ite _ (refuse_preserves n _ h) ?_
    split
    · exact finishCell_preserves n _ _ h
    · exact finishCell_preserves n _ _ (adoptSettings_preserves _ _ h)

theorem orderApplyRatings_preserves (n : CellId) (p : Part) :
    p.Preserves (orderApplyRatings n p) := by
  have h := takeCell_preserves n (.refl p)
  refine .ite _ (refuse_preserves n _ h) ?_
  dsimp only
  split
  · exact finishCell_preserves n _ _ h
  · exact finishCell_preserves n _ _ (h.setOrders _ id)

theorem orderRun_preserves (n : CellId) (p : Part) : p.Preserves (orderRun n p) := by
  have h := takeCell_preserves n (.refl p)
  unfold orderRun
  dsimp only
  split
  · exact refuse_preserves n _ h
  · split
    · exact refuse_preserves n _ h
    · exact .ite _ (finishCell_preserves n _ _ h)
        ((setTaken_preserves n (beginMagnetizing_preserves _ h)).setOrders _ id)

theorem orderStop_preserves (n : CellId) (p : Part) : p.Preserves (orderStop n p) := by
  have h := takeCell_preserves n (.refl p)
  have hstop := (setTaken_preserves n (stopHandOver_preserves (finishRun_preserves .superseded h))).setOrders
    { (setTaken n (stopHandOver (finishRun .superseded (takeCell n p))).1).orders with stop := some n } id
  exact .ite _ (finishCell_preserves n _ _ h) (.ite _ (finishStop_preserves .ok hstop) hstop)

theorem orderHalt_preserves (n : CellId) (p : Part) : p.Preserves (orderHalt n p) := by
  have h := takeCell_preserves n (.refl p)
  have hrun := finishRun_preserves .superseded h
  unfold orderHalt
  dsimp only
  split
  · exact refuse_preserves n _ h
  · split
    · exact finishCell_preserves n _ _ (tripEvent_preserves _ _ hrun)
    · exact .ite _ (finishCell_preserves n _ _ (raiseHalt_preserves hrun))
        (finishCell_preserves n _ _ hrun)

theorem orderSetSpeed_preserves (n : CellId) (p : Part) : p.Preserves (orderSetSpeed n p) :=
  have h := takeCell_preserves n (.refl p)
  .ite _ (refuse_preserves n _ h) (finishCell_preserves n _ _ (h.setSeq _ id))

theorem orderClearTrip_preserves (n : CellId) (p : Part) : p.Preserves (orderClearTrip n p) := by
  have h := takeCell_preserves n (.refl p)
  unfold orderClearTrip
  dsimp only
  split
  · exact refuse_preserves n _ h
  · exact finishCell_preserves n _ _ (clearLatched_preserves _ h)

theorem orderMotorOut_preserves (n : CellId) (p : Part) : p.Preserves (orderMotorOut n p) := by
  have h := takeCell_preserves n (.refl p)
  unfold orderMotorOut
  dsimp only
  split
  · exact refuse_preserves n _ h
  · exact .ite _ (finishCell_preserves n _ _ h) (.ite _ (refuse_preserves n _ h)
      (finishCell_preserves n _ _ (motorOutHandOver_preserves _ h)))

theorem orderMotorIn_preserves (n : CellId) (p : Part) : p.Preserves (orderMotorIn n p) := by
  have h := takeCell_preserves n (.refl p)
  unfold orderMotorIn
  dsimp only
  split
  · exact refuse_preserves n _ h
  · exact .ite _ (finishCell_preserves n _ _ h) (.ite _ (refuse_preserves n _ h)
      (.ite _ (refuse_preserves n _ h)
        (finishCell_preserves n _ _ (motorInHandOver_preserves _ h))))

theorem orderCapture_preserves (n : CellId) (p : Part) : p.Preserves (orderCapture n p) := by
  have h := takeCell_preserves n (.refl p)
  unfold orderCapture
  dsimp only
  split
  · exact refuse_preserves n _ h
  · split
    · exact refuse_preserves n _ h
    · exact (setTaken_preserves n (h.setCap _)).setOrders _ id

theorem orderCaptureCancel_preserves (n : CellId) (p : Part) :
    p.Preserves (orderCaptureCancel n p) := by
  have h := takeCell_preserves n (.refl p)
  unfold orderCaptureCancel
  dsimp only
  split
  · exact refuse_preserves n _ h
  · exact .ite _ (finishCell_preserves n _ _ h)
      (finishCell_preserves n _ _ (cancelCapture_preserves _ h))

theorem orderVibSelftest_preserves (n : CellId) (p : Part) : p.Preserves (orderVibSelftest n p) :=
  have h := takeCell_preserves n (.refl p)
  .ite _ (refuse_preserves n _ h) (.ite _ (refuse_preserves n _ h) (.ite _ (refuse_preserves n _ h)
    ((setTaken_preserves n (startSelftest_preserves h)).setOrders _ id)))

theorem orderLinkTest_preserves (n : CellId) (p : Part) : p.Preserves (orderLinkTest n p) := by
  have h := takeCell_preserves n (.refl p)
  unfold orderLinkTest
  dsimp only
  split
  · exact refuse_preserves n _ h
  · exact .ite _ (refuse_preserves n _ h) (.ite _ (refuse_preserves n _ h)
      ((setTaken_preserves n (linkTestHandOver_preserves _ h)).setOrders _ id))

theorem orderLinkReset_preserves (n : CellId) (p : Part) : p.Preserves (orderLinkReset n p) := by
  have h := takeCell_preserves n (.refl p)
  unfold orderLinkReset
  dsimp only
  split
  · exact refuse_preserves n _ h
  · exact .ite _ (refuse_preserves n _ h) (finishCell_preserves n _ _
      (finishLinkTest_preserves _ _ _ (linkResetHandOver_preserves _ h)))

theorem takeOrder_preserves (kind : OrderKind) (n : CellId) (p : Part) :
    p.Preserves (takeOrder kind n p) := by
  cases kind with
  | unknown => exact refuse_preserves n _ (takeCell_preserves n (.refl p))
  | applySettings => exact orderApplySettings_preserves n p
  | applyRatings => exact orderApplyRatings_preserves n p
  | run => exact orderRun_preserves n p
  | stop => exact orderStop_preserves n p
  | halt => exact orderHalt_preserves n p
  | setSpeed => exact orderSetSpeed_preserves n p
  | clearTrip => exact orderClearTrip_preserves n p
  | motorOut => exact orderMotorOut_preserves n p
  | motorIn => exact orderMotorIn_preserves n p
  | capture => exact orderCapture_preserves n p
  | captureCancel => exact orderCaptureCancel_preserves n p
  | vibSelftest => exact orderVibSelftest_preserves n p
  | linkTest => exact orderLinkTest_preserves n p
  | linkReset => exact orderLinkReset_preserves n p

/-! ### Resets -/

theorem routeOf_zero (src : Source) : routeOf 0#16 src ≠ 3 := by cases src <;> decide

/-- The blocks at their reset values have every bounded count in range, whatever thermal states and counts of
the trip unit are kept. -/
theorem atReset_countsInRange (q : Part) (enc : PerMotor Encoder) (thermal : PerMotor Nat)
    (sequence : Word) (unrecorded : Nat) (link : LinkState)
    (hexch : q.exch.guardCount = 0) (horders : q.orders = OrderUnit.atReset)
    (hacq : q.acq = Acquisition.atReset (enc.map Encoder.restarted))
    (hctl : q.ctl = PerMotor.both Control.atReset) (hlinks : q.links = PerMotor.both (Link.atReset link))
    (hseq : q.seq = Sequencer.atReset) (hallot : q.allot = Allotment.atReset thermal)
    (hvib : q.vib = Vibration.atReset) (htrip : q.trip = TripUnit.atReset sequence unrecorded)
    (hthermal : ∀ m, thermal.get m < 2 ^ 32) (hunrecorded : unrecorded ≤ 255) : q.CountsInRange := by
  have henc : ∀ e : Encoder, e.restarted.inRange := fun e =>
    ⟨iteInduction (motive := (· ≤ 16)) (fun _ => Nat.zero_le _) (fun _ => le_rfl), Nat.zero_le _⟩
  refine (Part.countsInRange_iff q).2 ⟨?_, ?_, ?_, ?_, ?_, ?_, ?_, ?_, ?_⟩
  · rw [hexch]; exact Nat.zero_le _
  · rw [horders]; exact Nat.zero_le _
  · rw [hacq]
    exact ⟨Nat.zero_le _, fun m => by
      simpa [Acquisition.atReset] using henc (enc.get m), Nat.zero_le _, Nat.zero_le _⟩
  · rw [hctl]; intro m; cases m <;> exact ⟨Nat.zero_le _, Nat.zero_le _⟩
  · rw [hlinks]; intro m; cases m <;> exact ⟨Nat.zero_lt_succ 15, Nat.zero_le _, Nat.zero_le _⟩
  · rw [hseq]; exact ⟨fun m => by cases m <;> exact Nat.zero_le _, by decide⟩
  · rw [hallot]
    exact ⟨fun m => by simpa [Allotment.atReset, LimitRecord.atReset] using hthermal m, Nat.zero_le _⟩
  · rw [hvib]; intro c; cases c <;> exact ⟨Nat.zero_le _, Nat.zero_le _⟩
  · rw [htrip]
    exact ⟨hunrecorded, by rintro f ⟨⟩, Nat.zero_le _, Nat.zero_le _⟩

theorem powerOnReset_keeps (p : Part) : p.InvariantsKept (powerOnReset p) where
  memory _ := wf_atPowerOn
  routing _ := routeOf_zero
  latched _ := trivial
  counts _ := atReset_countsInRange _ p.acq.enc (PerMotor.both 0) 0#16 0 .down rfl rfl rfl rfl rfl rfl rfl
    rfl rfl (fun m => by simp) (Nat.zero_le _)

theorem wf_closeTruncated (filling : Option Filling) (m : Memory) (h : Memory.wf m = true) :
    Memory.wf (closeTruncated filling m) = true := by
  unfold closeTruncated
  split
  · exact h
  · exact wf_writeWord _ _ _ (wf_writeWord _ _ _ h)

theorem partReset_keeps (q : Part) : q.InvariantsKept (partReset q) := by
  refine ⟨?_, ?_, ?_, ?_⟩
  · exact fun hm => wf_zeroRange _ _ _ (wf_closeTruncated _ _ hm)
  · exact fun _ => routeOf_zero
  · exact fun _ => trivial
  · exact fun hq => atReset_countsInRange _ q.acq.enc (q.allot.motor.map (fun r => r.thermalH))
      q.trip.sequence q.trip.unrecorded .down rfl rfl rfl rfl rfl rfl rfl rfl rfl
      (fun m => by simpa using hq.thermal m) hq.unrecorded

theorem becomeReady_keeps (closed : Bool) (p : Part) : p.InvariantsKept (becomeReady closed p) := by
  have hready := (((Part.Preserves.refl (p.setPhase .ready)).setPins { p.pins with resetAsserted := false }).setLinks
    (p.links.map (fun l => { l with state := .syncing })) (fun h m => by
      rw [PerMotor.get_map]; exact h m)).setAcq
    { p.acq with enc := p.acq.enc.map Encoder.atResetEnd } (fun h => ⟨h.1, fun m => by
      rw [PerMotor.get_map]
      exact ⟨iteInduction (motive := (· ≤ 16)) (fun _ => Nat.zero_le _) (fun _ => le_rfl), (h.2.1 m).2⟩,
      h.2.2⟩)
  have hrecord := Part.Preserves.ite (closed = true) (raiseSource_preserves .record hready) hready
  exact (Part.InvariantsKept.setPhase p .ready).trans
    (Part.Preserves.ite _ (report_preserves .external hrecord) hrecord).toInvariantsKept

theorem resetEnd_keeps (p : Part) : p.InvariantsKept (resetEnd p) := by
  unfold resetEnd
  split
  · exact .refl p
  · exact becomeReady_keeps false p
  · exact becomeReady_keeps _ p

theorem tripInAsserted_preserves (p : Part) : p.Preserves (tripInAsserted p) :=
  have h := (Part.Preserves.refl p).setPins { p.pins with tripIn := true }
  .ite _ (report_preserves .external h) h

/-! ## Due work and commands -/

theorem frameEvent_preserves (order : List FrameBlock) (p : Part) :
    p.Preserves (frameEvent order p).part := (Part.Preserves.refl p).setAcq _ id

theorem blockFrame_preserves (b : FrameBlock) (p : Part) : p.Preserves (blockFrame b p).part := by
  cases b with
  | acquisition => exact acquisitionFrame_preserves p
  | vibration => exact vibrationFrame_preserves p
  | sequencer => exact sequencerFrame_preserves p
  | allotment => exact allotmentFrame_preserves p
  | trip => exact tripFrame_preserves p
  | orders => exact .refl p
  | live => exact liveBlockWrite_preserves p

theorem scanCell_preserves (n : CellId) (p : Part) : p.Preserves (scanCell n p).part := by
  unfold scanCell
  split <;> exact .refl p

theorem blockScan_preserves (b : ScanBlock) (p : Part) : p.Preserves (blockScan b p).part := by
  cases b with
  | controlA => exact controlSamples_preserves .a p
  | controlB => exact controlSamples_preserves .b p
  | vibration => exact vibrationScan_preserves p
  | capture => exact captureScan_preserves p
  | fastRing => exact fastScan_preserves p

/-- No piece of due work breaks an invariant. -/
theorem runWork_preserves (w : Work) (p : Part) : p.Preserves (runWork w p).part := by
  cases w with
  | supervisionFrame => exact frameEvent_preserves _ p
  | scanComplete => exact scanComplete_preserves _ p
  | replyWindowClose m => exact replyWindowClose_preserves m p
  | currentSensorLost m => exact report_preserves _ (.refl p)
  | windowEnd c => exact windowEnd_preserves c p
  | captureBlockWrite e => exact captureBlockWrite_preserves e p
  | captureComplete e => exact captureComplete_preserves e p
  | selftestSettlingEnd => exact selftestSettlingEnd_preserves p
  | selftestMeasuringEnd => exact selftestMeasuringEnd_preserves p
  | selftestEnd => exact selftestEnd_preserves p
  | encoderValidRegained m => exact encoderValidRegained_preserves m p
  | encoderLost m => exact report_preserves _ (.refl p)
  | overspeed => exact report_preserves _ (.refl p)
  | speedMismatch => exact report_preserves _ (.refl p)
  | order kind cell => exact takeOrder_preserves kind cell p
  | linkUp m => exact linkUp_preserves m p
  | linkLost m => exact linkLost_preserves m p
  | recordClose => exact recordClose_preserves (.refl p)
  | tripRampEnd m => exact tripRampEnd_preserves m p
  | magnetizingRampFinished => exact magnetizingRampFinished_preserves p
  | failedStart => exact report_preserves _ (.refl p)
  | gearOverload => exact gearOverload_preserves p
  | derateHoldExpiry g => exact derateHoldExpiry_preserves g p
  | frameOf b => exact blockFrame_preserves b p
  | sequencerStart => exact sequencerStart_preserves p
  | sequencerLoop failed => exact sequencerLoop_preserves failed p
  | scanCell n => exact scanCell_preserves n p
  | vibrationPublish => exact vibrationPublish_preserves p
  | scanTo b => exact blockScan_preserves b p
  | controlCompute m => exact controlCompute_preserves m p
  | vibrationGroups =>
    dsimp only [runWork, Effect.only]
    exact vibrationGroups_preserves p

theorem runUntil_preserves (done : List Work → Bool) (k : Nat) (s : State)
    (h : p.Preserves s.part) : p.Preserves (runUntil done k s).part :=
  runUntil_keeps_part (fun q => p.Preserves q) (fun w q hq => hq.trans (runWork_preserves w q)) done k s h

/-- What a command answers keeps the invariants of part `p`. -/
def AnswerKeeps (p : Part) (o : Host.Outcome State Fault Refusal) : Prop :=
  ∀ t, o = .next t → p.InvariantsKept t.part

theorem answerKeeps_next (t : State) (h : p.InvariantsKept t.part) : AnswerKeeps p (.next t) := by
  rintro _ ⟨rfl⟩
  exact h

theorem actOn_keeps (f : Part → Part) (s : State) (h : p.Preserves s.part)
    (hf : s.part.Preserves (f s.part)) : AnswerKeeps p (actOn f s) :=
  answerKeeps_next _ (h.trans hf).toInvariantsKept

theorem actWith_keeps (f : Part → Effect) (s : State) (h : p.Preserves s.part)
    (hf : s.part.Preserves (f s.part).part) : AnswerKeeps p (actWith f s) :=
  answerKeeps_next _ (h.trans hf).toInvariantsKept

theorem occurWith_keeps (w : Work) (f : Part → Effect) (s : State)
    (hf : ∀ q : Part, q.Preserves (f q).part) : AnswerKeeps s.part (occurWith w f s) := by
  have hreach : s.part.Preserves (reach w s).part := runUntil_preserves _ _ _ (.refl _)
  unfold occurWith
  dsimp only
  split
  · exact answerKeeps_next _ (runUntil_preserves _ _ _ (hreach.trans (hf _))).toInvariantsKept
  · exact answerKeeps_next _ hreach.toInvariantsKept

theorem occur_keeps (w : Work) (s : State) : AnswerKeeps s.part (occur w s) :=
  occurWith_keeps w _ s (runWork_preserves w)

theorem finishEvent_preserves (s : State) : s.part.Preserves (finishEvent s).part :=
  runUntil_preserves _ _ _ (.refl _)

theorem finishForReset_preserves (s : State) : s.part.Preserves (finishForReset s).part :=
  runUntil_preserves _ _ _ (.refl _)

theorem execPartResetRequest_keeps (value : Word) (s : State) :
    AnswerKeeps s.part (execPartResetRequest value s) := by
  unfold execPartResetRequest
  split
  · exact answerKeeps_next _ ((finishForReset_preserves s).toInvariantsKept.trans (partReset_keeps _))
  · exact answerKeeps_next _ (.refl _)

theorem execControlPeriodExpiry_keeps (s : State) :
    AnswerKeeps s.part (execControlPeriodExpiry s) := by
  have hsettle : s.part.Preserves (settle s).part := runUntil_preserves _ _ _ (.refl _)
  unfold execControlPeriodExpiry
  split
  · exact actWith_keeps _ _ (runUntil_preserves _ _ _ (hsettle.trans (endSlotsLate_preserves _)))
      (periodExpiry_preserves _)
  · exact answerKeeps_next _ (.refl _)

/-- No command breaks an invariant. -/
theorem exec_keeps (c : Instr) (s : State) : AnswerKeeps s.part (exec c s) := by
  cases c with
  | powerOnReset => exact answerKeeps_next _ (powerOnReset_keeps _)
  | resetEnd => exact answerKeeps_next _ (resetEnd_keeps _)
  | partResetRequest value => exact execPartResetRequest_keeps value s
  | attentionAcknowledge value => exact actOn_keeps _ s (.refl _) (attentionWrite_preserves value _)
  | routingWrite value => exact actOn_keeps _ s (.refl _) (routingWrite_preserves value _)
  | registerWriteIgnored value => exact actOn_keeps _ s (.refl _) (.refl _)
  | hostWrite word value => exact actOn_keeps _ s (.refl _) (hostWrite_preserves word value _)
  | hostRead target => exact actOn_keeps _ s (.refl _) ((Part.Preserves.refl _).setPins _)
  | controlPeriodExpiry => exact execControlPeriodExpiry_keeps s
  | supervisionFrame order => exact occurWith_keeps _ _ s (frameEvent_preserves order)
  | conversionSlotEnd input =>
    exact actWith_keeps _ _ (runUntil_preserves _ _ _ (.refl _)) (conversionSlotEnd_preserves input _)
  | scanComplete order => exact occurWith_keeps _ _ s (scanComplete_preserves order)
  | encoderTransition m a b =>
    exact actWith_keeps _ _ (finishEvent_preserves s) (encoderTransition_preserves m a b _)
  | lineBreakAsserted m =>
    exact actOn_keeps _ _ (finishEvent_preserves s) (lineBreakAsserted_preserves m _)
  | lineBreakReleased m => exact actOn_keeps _ s (.refl _) (lineBreakReleased_preserves m _)
  | replyReceived m words => exact actOn_keeps _ s (.refl _) (replyReceived_preserves m words _)
  | tripInAsserted =>
    exact actOn_keeps _ _ (finishEvent_preserves s) (tripInAsserted_preserves _)
  | tripInReleased => exact actOn_keeps _ s (.refl _) ((Part.Preserves.refl _).setPins _)
  | _ => exact occur_keeps _ s

/-- No step breaks an invariant. -/
theorem step_keeps (s t : State) (h : step s = .next t) : s.part.InvariantsKept t.part := by
  unfold step at h
  split at h
  · unfold idleStep at h
    split at h
    · exact answerKeeps_next _ (.refl _) t h
    · exact answerKeeps_next _ (runUntil_preserves _ _ _ (runWork_preserves _ _)).toInvariantsKept t h
  · next c rest _ => exact exec_keeps c { s with pending := rest } t h

/-- Settles O19: no step breaks the canonical form. -/
theorem stepKeepsMemoryCanonical : Obligations.StepKeepsMemoryCanonical :=
  fun s t hs h => (step_keeps s t h).memory hs

/-- Settles O20: no step takes a count out of its bound. -/
theorem stepKeepsCounts : Obligations.StepKeepsCounts :=
  fun s t hs h => (step_keeps s t h).counts hs

/-- Settles O21: no step breaks the routing fields or the order of the latched set. -/
theorem stepKeepsRoutingAndLatched : Obligations.StepKeepsRoutingAndLatched :=
  ⟨fun s t hs h => (step_keeps s t h).routing hs, fun s t hs h => (step_keeps s t h).latched hs⟩

/-- Settles O18: the part after reset has its blocks at their reset values, with encoders and links as at
the reset's end. -/
theorem resetMeetsInv : Obligations.ResetMeetsInv where
  memory := wf_atPowerOn
  routing := routeOf_zero
  latched := trivial
  counts := atReset_countsInRange _ (PerMotor.both (Encoder.atReset false false false)) (PerMotor.both 0)
    0#16 0 .syncing rfl rfl rfl rfl rfl rfl rfl rfl rfl (fun m => by simp) (Nat.zero_le _)

end Sys2Proof.Machine
end

section
/-! Orders that are due: what the command that names one answers, and which blocks each operation leaves. -/

namespace Sys2Proof.Machine

/-! ## Blocks left as they were

One rule per operation: the blocks that it may change are among those listed. -/

namespace Part.keeps

variable {changed : List Block} {p q : Part}

theorem refl (changed : List Block) (p : Part) : Part.keeps changed p p := fun b _ => by cases b <;> rfl

/-- Blocks that two parts share may be read in either. -/
theorem trans {r : Part} (h : Part.keeps changed p q) (h' : Part.keeps changed q r) :
    Part.keeps changed p r := fun b hb => by
  have hpq := h b hb
  have hqr := h' b hb
  cases b <;> exact Eq.trans hqr hpq

theorem mono {wider : List Block} (h : Part.keeps changed p q) (hsub : changed ⊆ wider) :
    Part.keeps wider p q := fun b hb => h b (fun hc => hb (hsub hc))

theorem setPhase (h : Part.keeps changed p q) (v : Phase)
    (hc : Block.phase ∈ changed := by decide) : Part.keeps changed p (q.setPhase v) :=
  h.trans fun b hb => by cases b <;> first | rfl | exact absurd hc hb

theorem setPins (h : Part.keeps changed p q) (v : Pins)
    (hc : Block.pins ∈ changed := by decide) : Part.keeps changed p (q.setPins v) :=
  h.trans fun b hb => by cases b <;> first | rfl | exact absurd hc hb

theorem setExch (h : Part.keeps changed p q) (v : Exchange)
    (hc : Block.exch ∈ changed := by decide) : Part.keeps changed p (q.setExch v) :=
  h.trans fun b hb => by cases b <;> first | rfl | exact absurd hc hb

theorem setMem (h : Part.keeps changed p q) (v : Memory)
    (hc : Block.exch ∈ changed := by decide) : Part.keeps changed p (q.setMem v) :=
  h.trans fun b hb => by cases b <;> first | rfl | exact absurd hc hb

theorem setAttn (h : Part.keeps changed p q) (v : Attention)
    (hc : Block.attn ∈ changed := by decide) : Part.keeps changed p (q.setAttn v) :=
  h.trans fun b hb => by cases b <;> first | rfl | exact absurd hc hb

theorem setOrders (h : Part.keeps changed p q) (v : OrderUnit)
    (hc : Block.orders ∈ changed := by decide) : Part.keeps changed p (q.setOrders v) :=
  h.trans fun b hb => by cases b <;> first | rfl | exact absurd hc hb

theorem setAcq (h : Part.keeps changed p q) (v : Acquisition)
    (hc : Block.acq ∈ changed := by decide) : Part.keeps changed p (q.setAcq v) :=
  h.trans fun b hb => by cases b <;> first | rfl | exact absurd hc hb

theorem setCtl (h : Part.keeps changed p q) (v : PerMotor Control)
    (hc : Block.ctl ∈ changed := by decide) : Part.keeps changed p (q.setCtl v) :=
  h.trans fun b hb => by cases b <;> first | rfl | exact absurd hc hb

theorem setLinks (h : Part.keeps changed p q) (v : PerMotor Link)
    (hc : Block.links ∈ changed := by decide) : Part.keeps changed p (q.setLinks v) :=
  h.trans fun b hb => by cases b <;> first | rfl | exact absurd hc hb

theorem setSeq (h : Part.keeps changed p q) (v : Sequencer)
    (hc : Block.seq ∈ changed := by decide) : Part.keeps changed p (q.setSeq v) :=
  h.trans fun b hb => by cases b <;> first | rfl | exact absurd hc hb

theorem setVib (h : Part.keeps changed p q) (v : Vibration)
    (hc : Block.vib ∈ changed := by decide) : Part.keeps changed p (q.setVib v) :=
  h.trans fun b hb => by cases b <;> first | rfl | exact absurd hc hb

theorem setTrip (h : Part.keeps changed p q) (v : TripUnit)
    (hc : Block.trip ∈ changed := by decide) : Part.keeps changed p (q.setTrip v) :=
  h.trans fun b hb => by cases b <;> first | rfl | exact absurd hc hb

theorem setCap (h : Part.keeps changed p q) (v : PerEngine Engine)
    (hc : Block.cap ∈ changed := by decide) : Part.keeps changed p (q.setCap v) :=
  h.trans fun b hb => by cases b <;> first | rfl | exact absurd hc hb

theorem raise (h : Part.keeps changed p q) (src : Source) (hc : Block.attn ∈ changed := by decide) :
    Part.keeps changed p (raiseSource src q) := h.setAttn _ hc

theorem finish (h : Part.keeps changed p q) (n : CellId) (code : ResultCode) (values : List Word)
    (hc : Block.exch ∈ changed := by decide) (hc' : Block.attn ∈ changed := by decide) :
    Part.keeps changed p (finishCell n code values q) := (h.setMem _ hc).raise .order hc'

theorem taken (h : Part.keeps changed p q) (n : CellId) (hc : Block.exch ∈ changed := by decide) :
    Part.keeps changed p (setTaken n q) := h.setMem _ hc

theorem take (h : Part.keeps changed p q) (n : CellId) (hc : Block.exch ∈ changed := by decide)
    (hc' : Block.orders ∈ changed := by decide) : Part.keeps changed p (takeCell n q) :=
  (h.setOrders { q.orders with taken := q.orders.taken + 1#32 } hc').setMem _ hc

theorem endRun (h : Part.keeps changed p q) (code : ResultCode) (hc : Block.exch ∈ changed := by decide)
    (hc' : Block.attn ∈ changed := by decide) (hc'' : Block.orders ∈ changed := by decide) :
    Part.keeps changed p (finishRun code q) := by
  unfold finishRun
  split
  · exact h
  · exact (h.setOrders _ hc'').finish _ _ _ hc hc'

theorem endStop (h : Part.keeps changed p q) (code : ResultCode) (hc : Block.exch ∈ changed := by decide)
    (hc' : Block.attn ∈ changed := by decide) (hc'' : Block.orders ∈ changed := by decide) :
    Part.keeps changed p (finishStop code q) := by
  unfold finishStop
  split
  · exact h
  · exact (h.setOrders _ hc'').finish _ _ _ hc hc'

theorem endCapture (h : Part.keeps changed p q) (e : EngineId) (code : ResultCode) (values : List Word)
    (hc : Block.exch ∈ changed := by decide) (hc' : Block.attn ∈ changed := by decide)
    (hc'' : Block.orders ∈ changed := by decide) :
    Part.keeps changed p (finishCapture e code values q) := by
  unfold finishCapture
  split
  · exact h
  · exact (h.setOrders _ hc'').finish _ _ _ hc hc'

theorem endLinkTest (h : Part.keeps changed p q) (m : Motor) (code : ResultCode) (values : List Word)
    (hc : Block.exch ∈ changed := by decide) (hc' : Block.attn ∈ changed := by decide)
    (hc'' : Block.orders ∈ changed := by decide) :
    Part.keeps changed p (finishLinkTest m code values q) := by
  unfold finishLinkTest
  split
  · exact h
  · exact (h.setOrders _ hc'').finish _ _ _ hc hc'

end Part.keeps

end Sys2Proof.Machine
end

section
/-! The orders that store to their own cell alone: UNKNOWN_KIND, SET_SPEED, LINK_TEST, MOTOR_OUT, MOTOR_IN,
VIB_SELFTEST, CLEAR_TRIP. -/

namespace Sys2Proof.Machine

/-- An order that stands first comes about with the taking of its cell, which brings nothing else about. -/
theorem occur_order (kind : OrderKind) (n : CellId) (s : State) (rest : List Work)
    (ha : s.agenda = .order kind n :: rest) :
    occur (.order kind n) s =
      .next (drain { s with agenda := rest, part := takeOrder kind n s.part }) :=
  occurWith_head _ _ s rest rfl ha

/-- A cell taken and finished at once, with nothing done in between, whatever the code. -/
theorem orderAlready_of (n : CellId) (code : ResultCode) (values : List Word) (p : Part)
    (h : Memory.wf p.exch.mem = true) :
    OrderAnswered n code values p (finishCell n code values (takeCell n p)) ∧
      (finishCell n code values (takeCell n p)).orders =
        { p.orders with taken := p.orders.taken + 1#32 } ∧
      Part.keeps [.exch, .attn, .orders] p (finishCell n code values (takeCell n p)) :=
  have hr := orderRefused_of n code values p h
  ⟨hr.answered, hr.orders, hr.keeps⟩

@[simp] theorem takeCell_motorState (n : CellId) (p : Part) (m : Motor) :
    (takeCell n p).motorState m = p.motorState m := rfl

@[simp] theorem takeCell_settings (n : CellId) (p : Part) : (takeCell n p).settings = p.settings := rfl

/-! ## UNKNOWN_KIND -/

theorem orderKind_unknown (w : Word) (h : w = 0#16 ∨ 14 < w.toNat) : orderKind w = .unknown := by
  rcases h with rfl | h
  · rfl
  · unfold orderKind
    split <;> first | rfl | omega

/-- Settles O1: the taking of an unknown kind refuses the cell and looks at no argument. -/
theorem unknownKindRefused : Obligations.UnknownKindRefused :=
  ⟨orderKind_unknown, fun n s rest ha hwf =>
    ⟨_, occur_order .unknown n s rest ha, orderRefused_of n .unknownKind [] s.part hwf⟩⟩

/-! ## SET_SPEED -/

/-- Settles O7, by the checks of R21 in their order. -/
theorem setSpeedOrder : Obligations.SetSpeedOrder := by
  intro n s rest ha hwf
  refine ⟨orderSetSpeed n s.part, occur_order .setSpeed n s rest ha, ?_⟩
  have harg := cellArg_takeCell n n 0 s.part hwf (by decide)
  split
  · next hset =>
    have hq : orderSetSpeed n s.part = refuse n .noSettings (takeCell n s.part) := by
      simp [orderSetSpeed, hset]
    rw [hq]
    exact orderRefused_of n .noSettings [] s.part hwf
  · next hset =>
    intro asked stored
    have hstored : (if asked < 0 then 0 else min asked s.part.settings.maxSpeed) = stored := by
      dsimp only [stored]
      split
      · rfl
      · split <;> omega
    have hq : orderSetSpeed n s.part =
        finishCell n (if stored = asked then .ok else .clamped) [wordOf stored]
          ((takeCell n s.part).setSeq { s.part.seq with setpoint := stored }) := by
      rw [← hstored]
      simp [orderSetSpeed, hset, harg, asked]
    rw [hq]
    exact ⟨orderAnswered_of n _ _ s.part _ hwf rfl rfl rfl rfl, rfl, rfl,
      (((Part.keeps.refl _ _).take n).setSeq _).finish n _ _⟩

/-! ## LINK_TEST -/

/-- Settles O13, by the checks of R27 in their order. -/
theorem linkTestOrder : Obligations.LinkTestOrder := by
  intro n s rest ha hwf
  refine ⟨orderLinkTest n s.part, occur_order .linkTest n s rest ha, ?_⟩
  have harg := cellArg_takeCell n n 0 s.part hwf (by decide)
  split
  · next hm =>
    have hq : orderLinkTest n s.part = refuse n .badArgument (takeCell n s.part) := by
      simp [orderLinkTest, harg, hm]
    exact hq ▸ orderRefused_of n .badArgument [] s.part hwf
  · next m hm =>
    split
    · next hup =>
      have hq : orderLinkTest n s.part = refuse n .linkNotUp (takeCell n s.part) := by
        simp [orderLinkTest, harg, hm, hup]
      exact hq ▸ orderRefused_of n .linkNotUp [] s.part hwf
    · next hup =>
      split
      · next hbusy =>
        have hq : orderLinkTest n s.part = refuse n .busy (takeCell n s.part) := by
          simp [orderLinkTest, harg, hm, not_not.1 hup, hbusy]
        exact hq ▸ orderRefused_of n .busy [] s.part hwf
      · next hbusy =>
        have hq : orderLinkTest n s.part =
            (setTaken n (linkTestHandOver m (takeCell n s.part))).setOrders
              { (takeCell n s.part).orders with
                linkTest := s.part.orders.linkTest.set m (some n) } := by
          simp [orderLinkTest, harg, hm, not_not.1 hup, hbusy, linkTestHandOver]
        rw [hq]
        exact ⟨orderAccepted_of n s.part (linkTestHandOver m (takeCell n s.part)) _ hwf rfl rfl rfl, rfl, rfl,
          ((((Part.keeps.refl _ _).take n).setLinks _).taken n).setOrders _⟩

/-! ## MOTOR_OUT and MOTOR_IN -/

theorem motorCauseLatched_iff (ls : List Latched) (m : Motor) :
    motorCauseLatched ls m = true ↔ ∃ l ∈ ls, l.cause.owner = some m := by
  simp [motorCauseLatched]

theorem groupCauseLatched_iff (ls : List Latched) :
    groupCauseLatched ls = true ↔ ∃ l ∈ ls, l.cause.owner = none := by
  simp [groupCauseLatched]

/-- Settles O9, by the checks of R23 in their order. -/
theorem motorOutAndInOrders : Obligations.MotorOutAndInOrders := by
  constructor
  · intro n s rest ha hwf
    refine ⟨orderMotorOut n s.part, occur_order .motorOut n s rest ha, ?_⟩
    have harg := cellArg_takeCell n n 0 s.part hwf (by decide)
    split
    · next hm =>
      have hq : orderMotorOut n s.part = refuse n .badArgument (takeCell n s.part) := by
        simp [orderMotorOut, harg, hm]
      exact hq ▸ orderRefused_of n .badArgument [] s.part hwf
    · next m hm =>
      split
      · next hout =>
        have hq : orderMotorOut n s.part = finishCell n .already [] (takeCell n s.part) := by
          simp [orderMotorOut, harg, hm, hout]
        exact hq ▸ orderAlready_of n .already [] s.part hwf
      · next hout =>
        split
        · next hbusy =>
          have hq : orderMotorOut n s.part = refuse n .notIdle (takeCell n s.part) := by
            simp [orderMotorOut, harg, hm, hout, hbusy]
          exact hq ▸ orderRefused_of n .notIdle [] s.part hwf
        · next hbusy =>
          have hq : orderMotorOut n s.part =
              finishCell n .ok [] (motorOutHandOver m (takeCell n s.part)) := by
            simp [orderMotorOut, harg, hm, hout, hbusy]
          rw [hq]
          exact ⟨orderAnswered_of n .ok [] s.part (motorOutHandOver m (takeCell n s.part)) hwf rfl rfl rfl rfl,
            rfl, rfl, rfl, rfl,
            (((((Part.keeps.refl _ _).take n).setSeq _).setAcq _).setCtl _).finish n _ _⟩
  · intro n s rest ha hwf
    refine ⟨orderMotorIn n s.part, occur_order .motorIn n s rest ha, ?_⟩
    have harg := cellArg_takeCell n n 0 s.part hwf (by decide)
    split
    · next hm =>
      have hq : orderMotorIn n s.part = refuse n .badArgument (takeCell n s.part) := by
        simp [orderMotorIn, harg, hm]
      exact hq ▸ orderRefused_of n .badArgument [] s.part hwf
    · next m hm =>
      split
      · next hout =>
        have hq : orderMotorIn n s.part = finishCell n .already [] (takeCell n s.part) := by
          simp [orderMotorIn, harg, hm, hout]
        exact hq ▸ orderAlready_of n .already [] s.part hwf
      · next hout =>
        split
        · next hbusy =>
          have hq : orderMotorIn n s.part = refuse n .notIdle (takeCell n s.part) := by
            simp [orderMotorIn, harg, hm, not_not.1 hout, hbusy]
          exact hq ▸ orderRefused_of n .notIdle [] s.part hwf
        · next hbusy =>
          constructor
          · intro hl
            have hq : orderMotorIn n s.part = refuse n .tripLatched (takeCell n s.part) := by
              simp [orderMotorIn, harg, hm, not_not.1 hout, not_not.1 hbusy, (motorCauseLatched_iff _ _).2 hl]
            exact hq ▸ orderRefused_of n .tripLatched [] s.part hwf
          · intro hl
            have hnone : ¬ motorCauseLatched s.part.trip.latched m = true := by
              rw [motorCauseLatched_iff]
              rintro ⟨l, hmem, howner⟩
              exact hl l hmem howner
            have hq : orderMotorIn n s.part =
                finishCell n .ok [] (motorInHandOver m (takeCell n s.part)) := by
              simp [orderMotorIn, harg, hm, not_not.1 hout, not_not.1 hbusy, hnone]
            rw [hq]
            exact ⟨orderAnswered_of n .ok [] s.part (motorInHandOver m (takeCell n s.part)) hwf rfl rfl rfl rfl,
              rfl, rfl, (((Part.keeps.refl _ _).take n).setSeq _).finish n _ _⟩

end Sys2Proof.Machine
end

section
/-! VIB_SELFTEST and CLEAR_TRIP: sets of lines and of causes held as bits. -/

namespace Sys2Proof

/-! ## Numbers of channels and causes -/

theorem Accel.number_lt (c : Accel) : c.number < 8 := by cases c <;> decide

theorem Accel.number_injective (c d : Accel) (h : c.number = d.number) : c = d := by
  have hnth : ∀ c : Accel, Accel.all[c.number]? = some c := fun c => by cases c <;> rfl
  exact Option.some.inj ((hnth c).symm.trans (h ▸ hnth d))

theorem Accel.mem_all (c : Accel) : c ∈ Accel.all := by cases c <;> decide

theorem Cause.number_lt (c : Cause) : c.number < 32 := by
  rcases c with ⟨_ | _⟩ | ⟨_ | _⟩ | ⟨_ | _⟩ | ⟨_ | _⟩ | ⟨_ | _⟩ | ⟨_ | _⟩ | _ | _ | _ | ⟨_ | _ | _ | _⟩ | _ | _ | _
  all_goals decide

theorem Cause.all_getElem (c : Cause) : Cause.all[c.number]? = some c := by
  rcases c with ⟨_ | _⟩ | ⟨_ | _⟩ | ⟨_ | _⟩ | ⟨_ | _⟩ | ⟨_ | _⟩ | ⟨_ | _⟩ | _ | _ | _ | ⟨_ | _ | _ | _⟩ | _ | _ | _
  all_goals rfl

theorem Cause.number_injective (c d : Cause) (h : c.number = d.number) : c = d :=
  Option.some.inj ((Cause.all_getElem c).symm.trans (h ▸ Cause.all_getElem d))

end Sys2Proof

namespace Sys2Proof.Machine

/-! ## Sets held as bits -/

/-- The bits set one by one from a list, each at its number. -/
theorem getLsbD_foldl_or {α : Type} {w : Nat} (f : α → Nat) (xs : List α) (acc : BitVec w) (k : Nat)
    (hk : k < w) :
    (xs.foldl (fun acc x => acc ||| (1#w <<< f x)) acc).getLsbD k =
      (acc.getLsbD k || xs.any (fun x => f x == k)) := by
  have hone : ∀ j, (1#w <<< j).getLsbD k = (j == k) := by
    intro j
    simp only [BitVec.getLsbD_shiftLeft, BitVec.getLsbD_one, hk]
    by_cases h : j = k
    · subst h; simp; omega
    · have : (j == k) = false := by simp [h]
      rw [this]
      simp
      omega
  induction xs generalizing acc with
  | nil => simp
  | cons x xs ih => rw [List.foldl_cons, ih, BitVec.getLsbD_or, hone, List.any_cons, Bool.or_assoc]

/-- A condition under which a bit is set is the same as a filter before. -/
theorem foldl_ite_filter {α β : Type} (f : β → α → β) (c : α → Bool) (xs : List α) (acc : β) :
    xs.foldl (fun acc x => if c x then f acc x else acc) acc = (xs.filter c).foldl f acc := by
  rw [List.foldl_filter]

/-! ## VIB_SELFTEST -/

/-- A command to the test lines drives exactly the lines of its set (R60). -/
theorem testLine_assertTestLines (set : PerAccel Bool) (p : Part) (c : Accel) :
    testLine (assertTestLines set p) c = set.get c := by
  show (Accel.all.foldl (fun acc c => if set.get c then acc ||| (1#8 <<< c.number) else acc) 0#8).getLsbD
    c.number = _
  rw [foldl_ite_filter, getLsbD_foldl_or Accel.number _ _ _ c.number_lt]
  cases hc : set.get c with
  | true =>
    have : ∃ d ∈ Accel.all, set.get d = true ∧ d.number = c.number := ⟨c, c.mem_all, hc, rfl⟩
    simpa using this
  | false =>
    have : ∀ d ∈ Accel.all, set.get d = true → ¬ d.number = c.number := by
      intro d _ hd h
      rw [Accel.number_injective d c h, hc] at hd
      exact absurd hd (by decide)
    simpa using this

/-- Settles O12, by the checks of R26 in their order. -/
theorem vibSelftestOrder : Obligations.VibSelftestOrder := by
  intro n s rest ha hwf
  refine ⟨orderVibSelftest n s.part, occur_order .vibSelftest n s rest ha, ?_⟩
  split
  · next hbusy =>
    have hq : orderVibSelftest n s.part = refuse n .busy (takeCell n s.part) := by
      simp [orderVibSelftest, hbusy]
    exact hq ▸ orderRefused_of n .busy [] s.part hwf
  · next hbusy =>
    split
    · next hset =>
      have hq : orderVibSelftest n s.part = refuse n .noSettings (takeCell n s.part) := by
        simp [orderVibSelftest, hbusy, hset]
      exact hq ▸ orderRefused_of n .noSettings [] s.part hwf
    · next hset =>
      split
      · next hidle =>
        have hq : orderVibSelftest n s.part = refuse n .notIdle (takeCell n s.part) := by
          simp [orderVibSelftest, hbusy, hset, hidle]
        exact hq ▸ orderRefused_of n .notIdle [] s.part hwf
      · next hidle =>
        have hq : orderVibSelftest n s.part =
            (setTaken n (startSelftest (takeCell n s.part))).setOrders
              { (setTaken n (startSelftest (takeCell n s.part))).orders with selftest := some n } := by
          simp [orderVibSelftest, hbusy, hset, not_not.1 hidle]
        rw [hq]
        refine ⟨orderAccepted_of n s.part (startSelftest (takeCell n s.part)) _ hwf rfl rfl rfl,
          ⟨_, rfl, rfl, rfl, fun c => PerAccel.get_ofFun _ c⟩, fun c => ?_, rfl, fun c => ?_, rfl, rfl,
          (((((Part.keeps.refl _ _).take n).setVib _).setAcq _).taken n).setOrders _⟩
        · refine (PerAccel.get_ofFun _ c).trans ?_
          rw [PerAccel.get_ofFun]
          rfl
        · exact (testLine_assertTestLines _ _ c).trans (PerAccel.get_ofFun _ c)

/-! ## CLEAR_TRIP -/

/-- The set of conditions holds each cause at its number (R169). -/
theorem conditionBits_getLsbD (p : Part) (c : Cause) :
    (conditionBits p).getLsbD c.number = conditionPresent p c := by
  unfold conditionBits
  rw [getLsbD_foldl_or Cause.number _ _ _ c.number_lt]
  cases hc : conditionPresent p c with
  | true =>
    have : ∃ d ∈ Cause.all, conditionPresent p d = true ∧ d.number = c.number :=
      ⟨c, List.mem_of_getElem? c.all_getElem, hc, rfl⟩
    simpa using this
  | false =>
    have : ∀ d ∈ Cause.all, conditionPresent p d = true → ¬ d.number = c.number := by
      intro d _ hd h
      rw [Cause.number_injective d c h, hc] at hd
      exact absurd hd (by decide)
    simpa using this

/-- The two words of the latched set hold each cause at its number (spec 09, "Causes"). -/
theorem latchedBits_getLsbD (ls : List Latched) (c : Cause) :
    (latchedBits ls).getLsbD c.number = isLatched ls c := by
  unfold latchedBits isLatched
  rw [getLsbD_foldl_or (fun l : Latched => l.cause.number) _ _ _ c.number_lt, BitVec.getLsbD_zero,
    Bool.false_or]
  congr 1
  funext l
  by_cases h : l.cause = c
  · simp [h]
  · have : l.cause.number ≠ c.number := fun e => h (Cause.number_injective _ _ e)
    simp [h, this]

theorem conditionPresent_takeCell (n : CellId) (p : Part) (c : Cause) :
    conditionPresent (takeCell n p) c = conditionPresent p c := by cases c <;> rfl

/-- The set after CLEAR_TRIP keeps a cause unless it is in scope and its condition is absent (R163). -/
theorem clearLatched_latched (scope : ClearScope) (n : CellId) (p : Part) :
    (clearLatched scope (takeCell n p)).trip.latched =
      p.trip.latched.filter (fun l => !(scope.contains l.cause && !conditionPresent p l.cause)) := by
  simp only [clearLatched, Part.setTrip_trip, takeCell_trip, conditionPresent_takeCell]

/-- The conditions of the cause table (R162). -/
theorem conditionPresent_table (p : Part) :
    (∀ m : Motor,
      conditionPresent p (.overcurrent m) = false ∧
      (conditionPresent p (.inverterFault m) = true ↔ (p.links.get m).status = .fault) ∧
      (conditionPresent p (.linkLost m) = true ↔ (p.links.get m).state ≠ .up) ∧
      (conditionPresent p (.currentSensorLost m) = true ↔
        ∃ k, k < 2 ∧ (p.acq.scan.getD (phaseChannel m + k) Sample.zero).mark ≠ .valid) ∧
      (conditionPresent p (.encoderLost m) = true ↔ (p.acq.enc.get m).valid = false) ∧
      (conditionPresent p (.thermal m) = true ↔
        p.settings.thermalStart ≤ (p.allot.motor.get m).thermalH / 65536)) ∧
    conditionPresent p .speedMismatch = p.acq.mismatchPresent ∧
    (conditionPresent p .overspeed = true ↔ 0 < p.acq.overspeedRun) ∧
    (∀ g, conditionPresent p (.vibDanger g) = true ↔ (p.vib.group.get g).state = .danger) ∧
    conditionPresent p .external = p.pins.tripIn ∧
    conditionPresent p .gearOverload = false ∧ conditionPresent p .failedStart = false ∧
    conditionPresent p .halt = false := by
  refine ⟨fun m => ⟨rfl, ?_, ?_, ?_, ?_, ?_⟩, rfl, ?_, fun g => ?_, rfl, rfl, rfl, rfl⟩
  · simp [conditionPresent]
  · simp [conditionPresent]
  · have htwo : ∀ P : Nat → Prop, (∃ k, k < 2 ∧ P k) ↔ P 0 ∨ P 1 := fun P =>
      ⟨fun ⟨k, hk, h⟩ => by
        obtain rfl | rfl : k = 0 ∨ k = 1 := by omega
        · exact .inl h
        · exact .inr h,
      fun h => h.elim (fun h => ⟨0, by omega, h⟩) (fun h => ⟨1, by omega, h⟩)⟩
    rw [htwo]
    simp [conditionPresent, Part.markOf]
  · simp [conditionPresent]
  · exact decide_eq_true_iff
  · simp [conditionPresent, Nat.pos_iff_ne_zero]
  · simp [conditionPresent]

/-- Settles O8: the table of conditions, then the scopes of R163. -/
theorem clearTripOrder : Obligations.ClearTripOrder := by
  refine ⟨fun p => ?_, ?_⟩
  · obtain ⟨hmotor, hrest⟩ := conditionPresent_table p
    obtain ⟨hmis, hover, hvib, hext, hgear, hstart, hhalt⟩ := hrest
    refine ⟨fun m => ?_, hmis, hover, hvib, hext, hgear, hstart, hhalt, conditionBits_getLsbD p,
      latchedBits_getLsbD⟩
    cases m
    · exact hmotor .a
    · exact hmotor .b
  · intro n s rest ha hwf
    refine ⟨orderClearTrip n s.part, occur_order .clearTrip n s rest ha, ?_⟩
    have harg := cellArg_takeCell n n 0 s.part hwf (by decide)
    split
    · next hm =>
      have hq : orderClearTrip n s.part = refuse n .badArgument (takeCell n s.part) := by
        simp [orderClearTrip, harg, hm]
      exact hq ▸ orderRefused_of n .badArgument [] s.part hwf
    · next scope hm =>
      intro inScope
      have hscope : inScope = fun l => scope.contains l.cause := by
        funext l
        cases scope <;> rfl
      have hq : orderClearTrip n s.part =
          finishCell n
            (if (clearLatched scope (takeCell n s.part)).trip.latched.filter inScope = [] then .ok
              else .stillPresent)
            (wordsOf32 (latchedBits ((clearLatched scope (takeCell n s.part)).trip.latched.filter inScope)))
            (clearLatched scope (takeCell n s.part)) := by
        simp only [orderClearTrip, harg, hm, latchedInScope, hscope, List.isEmpty_iff]
      rw [hq]
      refine ⟨fun l => ?_, rfl, orderAnswered_of n _ _ s.part (clearLatched scope (takeCell n s.part)) hwf
        rfl rfl rfl rfl, rfl, (((Part.keeps.refl _ _).take n).setTrip _).finish n _ _⟩
      rw [finishCell_trip, clearLatched_latched, List.mem_filter, hscope]
      cases hc : scope.contains l.cause <;> simp [hc]

end Sys2Proof.Machine
end

section
/-! APPLY_SETTINGS and APPLY_RATINGS: validation field by field, then the orders. -/

namespace Sys2Proof

/-! ## One field -/

/-- A rule's value lies outside its range. -/
theorem outsideRange_iff (r : FieldRule) (w : Word) :
    Machine.outsideRange r w ↔ ¬ (r.lo ≤ r.value w ∧ r.value w ≤ r.hi) := by
  show (r.value w < r.lo ∨ r.hi < r.value w) ↔ _
  omega

theorem FieldRule.check_clamped_iff (r : FieldRule) (w : Word) :
    (r.check w).clamped = true ↔ r.outside = .clamped ∧ Machine.outsideRange r w := by
  rw [outsideRange_iff]
  unfold FieldRule.check
  dsimp only
  split
  · next h => simp [h]
  · next h => cases r.outside <;> simp [h]

theorem FieldRule.check_failed_iff (r : FieldRule) (w : Word) :
    (r.check w).failed = true ↔ r.outside = .refused ∧ Machine.outsideRange r w := by
  rw [outsideRange_iff]
  unfold FieldRule.check
  dsimp only
  split
  · next h => simp [h]
  · next h => cases r.outside <;> simp [h]

/-- A field within its range, or one that is refused, keeps its word. -/
theorem FieldRule.check_kept (r : FieldRule) (w : Word)
    (h : ¬ Machine.outsideRange r w ∨ r.outside = .refused) : (r.check w).word = w := by
  rw [outsideRange_iff] at h
  unfold FieldRule.check
  dsimp only
  split
  · rfl
  · next hr =>
    rcases h with h | h
    · exact absurd hr h
    · simp [h]

/-- A clamped field is put at the nearer end of its range. -/
theorem FieldRule.check_clamps (r : FieldRule) (w : Word) (hlohi : r.lo ≤ r.hi)
    (h : Machine.outsideRange r w) (hc : r.outside = .clamped) :
    (r.check w).word = wordOf (if r.value w < r.lo then r.lo else r.hi) := by
  rw [outsideRange_iff] at h
  have hclamp : clampTo r.lo r.hi (r.value w) = if r.value w < r.lo then r.lo else r.hi := by
    unfold clampTo
    split <;> omega
  unfold FieldRule.check
  dsimp only
  rw [if_neg h, hc, ← hclamp]

/-! ## A copy, row by row -/

/-- The row of a copy's table at index `i`. -/
def ruleAt (rules : List FieldRule) (i : Nat) : FieldRule := rules.getD i .free

section Rows

variable (rules : List FieldRule) (ws : List Word)

theorem validateFrom_length (off : Nat) (h : ws.length = rules.length) :
    (validateFrom off rules ws).copy.length = ws.length := by
  induction rules generalizing off ws with
  | nil => cases ws <;> simp_all [validateFrom]
  | cons r rs ih =>
    cases ws with
    | nil => simp at h
    | cons w ws => simp [validateFrom, ih ws (off + 2) (by simpa using h)]

theorem validateFrom_copy (off i : Nat) (h : ws.length = rules.length) (hi : i < ws.length) :
    (validateFrom off rules ws).copy.getD i 0#16 = ((ruleAt rules i).check (ws.getD i 0#16)).word := by
  induction rules generalizing off ws i with
  | nil => simp_all
  | cons r rs ih =>
    cases ws with
    | nil => simp at hi
    | cons w ws =>
      cases i with
      | zero => rfl
      | succ i => simpa [validateFrom, ruleAt] using ih ws (off + 2) i (by simpa using h) (by simpa using hi)

/-- The offsets of the rows whose check has a property, as validation lists them. -/
theorem mem_validateFrom (off x : Nat) (h : ws.length = rules.length) :
    (x ∈ (validateFrom off rules ws).clamps ↔ ∃ i < ws.length, x = off + 2 * i ∧
      ((ruleAt rules i).check (ws.getD i 0#16)).clamped = true) ∧
    (x ∈ (validateFrom off rules ws).fails ↔ ∃ i < ws.length, x = off + 2 * i ∧
      ((ruleAt rules i).check (ws.getD i 0#16)).failed = true) := by
  induction rules generalizing off ws with
  | nil => cases ws <;> simp_all [validateFrom]
  | cons r rs ih =>
    cases ws with
    | nil => simp at h
    | cons w ws =>
      obtain ⟨ihc, ihf⟩ := ih ws (off + 2) (by simpa using h)
      have hsplit : ∀ (P : FieldCheck → Prop),
          (∃ i < (w :: ws).length, x = off + 2 * i ∧
            P ((ruleAt (r :: rs) i).check ((w :: ws).getD i 0#16))) ↔
          (x = off ∧ P (r.check w)) ∨
            ∃ i < ws.length, x = off + 2 + 2 * i ∧ P ((ruleAt rs i).check (ws.getD i 0#16)) := by
        intro P
        constructor
        · rintro ⟨_ | i, hi, hx, hP⟩
          · exact .inl ⟨hx, hP⟩
          · exact .inr ⟨i, by simpa using hi, by omega, by simpa [ruleAt] using hP⟩
        · rintro (⟨hx, hP⟩ | ⟨i, hi, hx, hP⟩)
          · exact ⟨0, by simp, hx, hP⟩
          · exact ⟨i + 1, by simpa using hi, by omega, by simpa [ruleAt] using hP⟩
      rw [hsplit (fun c => c.clamped = true), hsplit (fun c => c.failed = true), ← ihc, ← ihf]
      simp only [validateFrom]
      constructor
      · cases (r.check w).clamped <;> simp
      · cases (r.check w).failed <;> simp

theorem validateFrom_clamps_ascending (off : Nat) (h : ws.length = rules.length) :
    (validateFrom off rules ws).clamps.Pairwise (· < ·) := by
  induction rules generalizing off ws with
  | nil => cases ws <;> simp [validateFrom]
  | cons r rs ih =>
    cases ws with
    | nil => simp at h
    | cons w ws =>
      have h' : ws.length = rs.length := by simpa using h
      have htail := ih ws (off + 2) h'
      simp only [validateFrom]
      split
      · refine List.pairwise_cons.2 ⟨fun x hx => ?_, htail⟩
        obtain ⟨i, _, hx, _⟩ := (mem_validateFrom rs ws (off + 2) x h').1.1 hx
        omega
      · exact htail

end Rows

/-! ## The lowest failing offset -/

theorem lowest_eq_none (xs : List Nat) : lowest xs = none ↔ xs = [] := by
  cases xs <;> simp [lowest]

theorem lowest_spec (xs : List Nat) (m : Nat) (h : lowest xs = some m) : m ∈ xs ∧ ∀ x ∈ xs, m ≤ x := by
  induction xs generalizing m with
  | nil => simp [lowest] at h
  | cons x xs ih =>
    simp only [lowest, Option.some.injEq] at h
    split at h
    · next y hy =>
      obtain ⟨hmem, hle⟩ := ih y hy
      constructor
      · rcases Nat.le_total x y with hxy | hxy
        · rw [← h, Nat.min_eq_left hxy]; exact List.mem_cons_self
        · rw [← h, Nat.min_eq_right hxy]; exact List.mem_cons_of_mem _ hmem
      · intro z hz
        rcases List.mem_cons.1 hz with rfl | hz
        · omega
        · have := hle z hz; omega
    · next hnone =>
      rw [lowest_eq_none] at hnone
      subst hnone h
      simp

theorem lowest_of_least (xs : List Nat) (m : Nat) (hm : m ∈ xs) (hle : ∀ x ∈ xs, m ≤ x) :
    lowest xs = some m := by
  cases h : lowest xs with
  | none =>
    rw [lowest_eq_none] at h
    simp [h] at hm
  | some k =>
    obtain ⟨hk, hkle⟩ := lowest_spec xs k h
    rw [Nat.le_antisymm (hkle m hm) (hle k hk)]

/-! ## The settings page -/

/-- The table of the page, row by row: each row stands at twice its index. -/
theorem pageTable_eq : Machine.pageTable = (List.range 147).map (fun i => (2 * i, ruleAt pageRules i)) := by
  decide +kernel

theorem pageRules_lo_le_hi : ∀ i < 147, (ruleAt pageRules i).lo ≤ (ruleAt pageRules i).hi := by decide

theorem mem_pageTable (row : Nat × FieldRule) :
    row ∈ Machine.pageTable ↔ ∃ i < 147, row = (2 * i, ruleAt pageRules i) := by
  rw [pageTable_eq]
  simp only [List.mem_map, List.mem_range]
  exact ⟨fun ⟨i, hi, h⟩ => ⟨i, hi, h.symm⟩, fun ⟨i, hi, h⟩ => ⟨i, hi, h.symm⟩⟩

/-- The relations of R30 that validation lists are those that do not hold. -/
theorem mem_pageRelationFails (ws : List Word) (off : Nat) :
    off ∈ pageRelationFails ws ↔ Machine.pageRelationBroken ws off := by
  have hite : ∀ (c : Prop) [Decidable c] (k : Nat), off ∈ (if c then [k] else []) ↔ off = k ∧ c := by
    intro c _ k
    split <;> simp [*]
  have hmap : ∀ (n : Nat) (c : Nat → Prop) [DecidablePred c] (f : Nat → Nat),
      off ∈ (List.range n).filterMap (fun i => if c i then some (f i) else none) ↔
        ∃ i, i < n ∧ off = f i ∧ c i := by
    intro n c _ f
    simp only [List.mem_filterMap, List.mem_range]
    constructor
    · rintro ⟨i, hi, h⟩
      split at h
      · next hc => exact ⟨i, hi, (Option.some.inj h).symm, hc⟩
      · cases h
    · rintro ⟨i, hi, rfl, hc⟩
      exact ⟨i, hi, if_pos hc⟩
  unfold pageRelationFails Machine.pageRelationBroken
  simp only [List.mem_append, hite, hmap]
  constructor
  · rintro (((((h | h) | h) | ⟨i, hi, rfl, h⟩) | ⟨i, hi, rfl, h⟩) | ⟨i, hi, rfl, h⟩)
    · exact .inl h
    · exact .inr (.inl h)
    · exact .inr (.inr (.inl h))
    · exact .inr (.inr (.inr (.inl ⟨i, hi, rfl, h⟩)))
    · exact .inr (.inr (.inr (.inr (.inl ⟨i, hi, rfl, h⟩))))
    · exact .inr (.inr (.inr (.inr (.inr ⟨i, hi, rfl, h⟩))))
  · rintro (h | h | h | ⟨i, hi, rfl, h⟩ | ⟨i, hi, rfl, h⟩ | ⟨i, hi, rfl, h⟩)
    · exact .inl (.inl (.inl (.inl (.inl h))))
    · exact .inl (.inl (.inl (.inl (.inr h))))
    · exact .inl (.inl (.inl (.inr h)))
    · exact .inl (.inl (.inr ⟨i, hi, rfl, h⟩))
    · exact .inl (.inr ⟨i, hi, rfl, h⟩)
    · exact .inr ⟨i, hi, rfl, h⟩

/-- Validation of a page is what R30 says, row by row and relation by relation. -/
theorem pageValidated (ws : List Word) (hlen : ws.length = 147) :
    Machine.PageValidated ws (validatePage ws) := by
  have hrules : ws.length = pageRules.length := hlen
  have hcopy : ∀ i < 147, copyWord (validatePage ws).copy (2 * i) =
      ((ruleAt pageRules i).check (copyWord ws (2 * i))).word := by
    intro i hi
    have := validateFrom_copy pageRules ws 0 i hrules (hlen ▸ hi)
    simpa [copyWord, validatePage] using this
  have hword : ∀ i, ws.getD i 0#16 = copyWord ws (2 * i) := fun i => by simp [copyWord]
  refine ⟨validateFrom_length pageRules ws 0 hrules, ?_, ?_, fun off => ?_,
    validateFrom_clamps_ascending pageRules ws 0 hrules, fun off => ?_⟩
  · intro row hrow h
    obtain ⟨i, hi, rfl⟩ := (mem_pageTable row).1 hrow
    exact (hcopy i hi).trans ((ruleAt pageRules i).check_kept _ h)
  · intro row hrow hout hclamped
    obtain ⟨i, hi, rfl⟩ := (mem_pageTable row).1 hrow
    exact (hcopy i hi).trans ((ruleAt pageRules i).check_clamps _ (pageRules_lo_le_hi i hi) hout hclamped)
  · refine (mem_validateFrom pageRules ws 0 off hrules).1.trans ?_
    rw [hlen]
    constructor
    · rintro ⟨i, hi, rfl, hc⟩
      rw [hword, FieldRule.check_clamped_iff] at hc
      exact ⟨_, (mem_pageTable _).2 ⟨i, hi, rfl⟩, (Nat.zero_add _).symm, hc.1, by simpa using hc.2⟩
    · rintro ⟨row, hrow, rfl, hc⟩
      obtain ⟨i, hi, rfl⟩ := (mem_pageTable row).1 hrow
      exact ⟨i, hi, (Nat.zero_add _).symm, by rw [hword]; exact (FieldRule.check_clamped_iff _ _).2 hc⟩
  · show off ∈ (validateFrom 0 pageRules ws).fails ++ pageRelationFails (validatePage ws).copy ↔ _
    rw [List.mem_append, mem_pageRelationFails, (mem_validateFrom pageRules ws 0 off hrules).2, hlen]
    refine or_congr_left ?_
    constructor
    · rintro ⟨i, hi, rfl, hc⟩
      rw [hword, FieldRule.check_failed_iff] at hc
      exact ⟨_, (mem_pageTable _).2 ⟨i, hi, rfl⟩, (Nat.zero_add _).symm, hc.1, by simpa using hc.2⟩
    · rintro ⟨row, hrow, rfl, hc⟩
      obtain ⟨i, hi, rfl⟩ := (mem_pageTable row).1 hrow
      exact ⟨i, hi, (Nat.zero_add _).symm, by rw [hword]; exact (FieldRule.check_failed_iff _ _).2 hc⟩

end Sys2Proof

namespace Sys2Proof.Machine

/-- A page argument names an offset outside the order cells. -/
theorem pageArgument_base (w : Word) (page base : Nat) (h : pageArgument w = some (page, base)) :
    0x500 ≤ base := by
  unfold pageArgument at h
  split at h
  · obtain ⟨-, rfl⟩ := Prod.mk.inj (Option.some.inj h); decide
  · obtain ⟨-, rfl⟩ := Prod.mk.inj (Option.some.inj h); decide
  · cases h

/-- The settings take each field from its offset of the page (spec 02). -/
theorem settings_of_words (ws : List Word) :
    let t := Settings.ofWords ws
    (∀ g : VibGroup,
      let o := 0x05E + 10 * g.number
      t.groups.get g =
        { margin := copyNat ws o, alertFactor := copyNat ws (o + 2), dangerFactor := copyNat ws (o + 4)
          lostFactor := copyNat ws (o + 6), holdCode := copyNat ws (o + 8) }) ∧
    (∀ (b : Nat) (g : VibGroup), b < 8 →
      let o := 0x086 + 16 * b + 4 * g.number
      Settings.thresholdsOf t b g = { alert := copyNat ws o, danger := copyNat ws (o + 2) }) ∧
    ∀ c : Accel, t.selftest.get c =
      { low := copyNat ws (0x106 + 4 * c.number), high := copyNat ws (0x108 + 4 * c.number) } := by
  refine ⟨fun g => by cases g <;> rfl, fun b g hb => ?_, fun c => by cases c <;> rfl⟩
  have hoff : thresholdOffset b g.number = 0x086 + 16 * b + 4 * g.number := by
    unfold thresholdOffset; omega
  unfold Settings.thresholdsOf Settings.ofWords
  rw [List.getElem?_map, List.getElem?_range hb]
  simp only [Option.map_some, PerGroup.get_ofFun, hoff]

/-- A copy of a page with a failing field is refused (R16). -/
theorem orderApplySettings_failing (n : CellId) (p : Part) (page base off : Nat)
    (hwf : Memory.wf p.exch.mem = true) (hm : pageArgument (cellArg p n 0) = some (page, base))
    (hfree : ¬ p.orders.selftest.isSome = true)
    (hlow : lowest (validatePage (readWords p.exch.mem base 147)).fails = some off) :
    orderApplySettings n p = finishCell n .badSettings [wordOfNat off] (takeCell n p) := by
  have harg := cellArg_takeCell n n 0 p hwf (by decide)
  have hread := readWords_takeCell n base 147 p hwf (pageArgument_base _ _ _ hm)
  simp only [orderApplySettings, harg, hm, takeCell_orders, hfree, Bool.false_eq_true, ↓reduceIte, hread, hlow]

/-- A copy of a page without a failing field becomes the active settings (R31, R33). -/
theorem orderApplySettings_accepted (n : CellId) (p : Part) (page base : Nat)
    (hwf : Memory.wf p.exch.mem = true) (hm : pageArgument (cellArg p n 0) = some (page, base))
    (hfree : ¬ p.orders.selftest.isSome = true)
    (hlow : lowest (validatePage (readWords p.exch.mem base 147)).fails = none) :
    orderApplySettings n p =
      let v := validatePage (readWords p.exch.mem base 147)
      let q := adoptSettings page (Settings.ofWords v.copy) (takeCell n p)
      finishCell n (appliedCode v)
        (clampValues v ++ [wordOfNat (Settings.ofWords v.copy).tag, wordOfNat q.orders.applyCount]) q := by
  have harg := cellArg_takeCell n n 0 p hwf (by decide)
  have hread := readWords_takeCell n base 147 p hwf (pageArgument_base _ _ _ hm)
  simp only [orderApplySettings, harg, hm, takeCell_orders, hfree, Bool.false_eq_true, ↓reduceIte, hread, hlow]

/-- Settles O2: validation by the table, then the checks of R16 in their order. -/
theorem applySettingsOrder : Obligations.ApplySettingsOrder := by
  refine ⟨pageValidated, fun ws => ?_, ?_⟩
  · exact ⟨rfl, rfl, rfl, by simp [Settings.ofWords], settings_of_words ws⟩
  · intro n s rest ha hwf
    refine ⟨orderApplySettings n s.part, occur_order .applySettings n s rest ha, ?_⟩
    have harg := cellArg_takeCell n n 0 s.part hwf (by decide)
    split
    · next hm =>
      have hq : orderApplySettings n s.part = refuse n .badArgument (takeCell n s.part) := by
        simp [orderApplySettings, harg, hm]
      exact hq ▸ orderRefused_of n .badArgument [] s.part hwf
    · next page base hm =>
      split
      · next hbusy =>
        have hq : orderApplySettings n s.part = refuse n .busy (takeCell n s.part) := by
          simp [orderApplySettings, harg, hm, hbusy]
        exact hq ▸ orderRefused_of n .busy [] s.part hwf
      · next hfree =>
        intro v count
        constructor
        · intro off hoff hle
          rw [orderApplySettings_failing n s.part page base off hwf hm hfree (lowest_of_least _ _ hoff hle)]
          exact orderRefused_of n .badSettings [wordOfNat off] s.part hwf
        · intro hnone
          rw [orderApplySettings_accepted n s.part page base hwf hm hfree ((lowest_eq_none _).2 hnone)]
          have hcode : appliedCode v = if v.clamps = [] then .ok else .appliedWithClamps := by
            simp [appliedCode]
          have htag : wordOfNat (Settings.ofWords v.copy).tag = copyWord v.copy 0 := by
            simp [Settings.ofWords, copyNat, wordOfNat]
          have hmin : ∀ x y : Int, min x y = if y < x then y else x := fun x y => by split <;> omega
          refine ⟨?_, rfl, ?_, ((((Part.keeps.refl _ _).take n).setOrders _).setSeq _).finish n _ _⟩
          · rw [← hcode, ← htag]
            exact orderAnswered_of n _ _ s.part _ hwf rfl rfl rfl rfl
          · exact congrArg (fun x => ({ s.part.seq with setpoint := x } : Sequencer)) (hmin _ _)

/-! ## APPLY_RATINGS -/

theorem outsideRange_refuseS (lo : Int) (w : Word) :
    outsideRange (.refuseS lo 32767) w ↔ w.toInt < lo := by
  have := BitVec.toInt_lt (x := w)
  simp only [outsideRange, FieldRule.refuseS, ↓reduceIte]
  omega

theorem outsideRange_refuseU (lo : Int) (w : Word) :
    outsideRange (.refuseU lo 65535) w ↔ (w.toNat : Int) < lo := by
  have := w.isLt
  simp only [outsideRange, FieldRule.refuseU, Bool.false_eq_true, ↓reduceIte]
  omega

theorem outsideRange_free (w : Word) : ¬ outsideRange .free w := by
  have := w.isLt
  simp only [outsideRange, FieldRule.free, Bool.false_eq_true, ↓reduceIte]
  omega

/-- Every row of the ratings record is refused when outside its range, or has none. -/
theorem ratingsRules_outside (i : Nat) :
    (ruleAt ratingsRules i).outside = .refused ∨ ruleAt ratingsRules i = .free := by
  rcases Nat.lt_or_ge i 9 with h | h
  · interval_cases i <;> decide
  · exact .inr (List.getD_eq_default _ _ h)

/-- By the ranges alone no word of the record changes and none is clamped. -/
theorem validateFrom_ratings (ws : List Word) (hlen : ws.length = 9) :
    (validateFrom 0 ratingsRules ws).copy = ws ∧ (validateFrom 0 ratingsRules ws).clamps = [] := by
  have hrules : ws.length = ratingsRules.length := hlen
  have hkept : ∀ i w, ¬ outsideRange (ruleAt ratingsRules i) w ∨
      (ruleAt ratingsRules i).outside = .refused := fun i w =>
    (ratingsRules_outside i).elim .inr (fun h => .inl (h ▸ outsideRange_free w))
  constructor
  · refine List.ext_getElem (validateFrom_length _ _ _ hrules) (fun i h1 h2 => ?_)
    have h := validateFrom_copy ratingsRules ws 0 i hrules h2
    rw [FieldRule.check_kept _ _ (hkept i _), List.getD_eq_getElem _ _ h1, List.getD_eq_getElem _ _ h2] at h
    exact h
  · refine List.eq_nil_iff_forall_not_mem.2 (fun off hoff => ?_)
    obtain ⟨i, _, _, hc⟩ := (mem_validateFrom ratingsRules ws 0 off hrules).1.1 hoff
    obtain ⟨hclamped, hout⟩ := (FieldRule.check_clamped_iff _ _).1 hc
    rcases hkept i (ws.getD i 0#16) with h | h
    · exact h hout
    · rw [h] at hclamped
      cases hclamped

/-- The failing fields of the record (R44). -/
theorem mem_fails_ratings (ws : List Word) (hlen : ws.length = 9) (off : Nat) :
    off ∈ (validateFrom 0 ratingsRules ws).fails ↔
      (off = 0x000 ∧ copyInt ws 0x000 < 1) ∨ (off = 0x002 ∧ copyInt ws 0x002 < 1) ∨
      (off = 0x004 ∧ copyInt ws 0x004 < 0) ∨ (off = 0x00C ∧ copyNat ws 0x00C < 256) := by
  rw [(mem_validateFrom ratingsRules ws 0 off hlen).2, hlen]
  have h0 : outsideRange (ruleAt ratingsRules 0) (ws.getD 0 0#16) ↔ copyInt ws 0x000 < 1 :=
    outsideRange_refuseS 1 _
  have h1 : outsideRange (ruleAt ratingsRules 1) (ws.getD 1 0#16) ↔ copyInt ws 0x002 < 1 :=
    outsideRange_refuseS 1 _
  have h2 : outsideRange (ruleAt ratingsRules 2) (ws.getD 2 0#16) ↔ copyInt ws 0x004 < 0 :=
    outsideRange_refuseS 0 _
  have h6 : outsideRange (ruleAt ratingsRules 6) (ws.getD 6 0#16) ↔ copyNat ws 0x00C < 256 :=
    (outsideRange_refuseU 256 _).trans Nat.cast_lt
  simp only [FieldRule.check_failed_iff]
  constructor
  · rintro ⟨i, hi, rfl, href, hout⟩
    interval_cases i
    · exact .inl ⟨rfl, h0.1 hout⟩
    · exact .inr (.inl ⟨rfl, h1.1 hout⟩)
    · exact .inr (.inr (.inl ⟨rfl, h2.1 hout⟩))
    · cases href
    · cases href
    · cases href
    · exact .inr (.inr (.inr ⟨rfl, h6.1 hout⟩))
    · cases href
    · cases href
  · rintro (⟨rfl, h⟩ | ⟨rfl, h⟩ | ⟨rfl, h⟩ | ⟨rfl, h⟩)
    · exact ⟨0, by decide, rfl, rfl, h0.2 h⟩
    · exact ⟨1, by decide, rfl, rfl, h1.2 h⟩
    · exact ⟨2, by decide, rfl, rfl, h2.2 h⟩
    · exact ⟨6, by decide, rfl, rfl, h6.2 h⟩

/-- The ranges, then IQLIM held at the overcurrent threshold (R44). -/
theorem ratingsValidated (ws : List Word) (hlen : ws.length = 9) :
    let v := validateRatings ws
    let above : Prop := copyInt ws 0x002 < copyInt ws 0x004
    (∀ off, off ∈ v.fails ↔
      (off = 0x000 ∧ copyInt ws 0x000 < 1) ∨ (off = 0x002 ∧ copyInt ws 0x002 < 1) ∨
      (off = 0x004 ∧ copyInt ws 0x004 < 0) ∨ (off = 0x00C ∧ copyNat ws 0x00C < 256)) ∧
    (above → v.copy = ws.set 2 (copyWord ws 0x002) ∧ v.clamps = [0x004]) ∧
    (¬ above → v.copy = ws ∧ v.clamps = []) := by
  obtain ⟨hcopy, hclamps⟩ := validateFrom_ratings ws hlen
  have hfails := mem_fails_ratings ws hlen
  unfold validateRatings
  dsimp only
  rw [hcopy]
  split
  · next h => exact ⟨hfails, fun _ => ⟨rfl, rfl⟩, fun hn => absurd h hn⟩
  · next h => exact ⟨hfails, fun ha => absurd ha h, fun _ => ⟨hcopy, hclamps⟩⟩

/-- Settles O3, by the checks of R17 in their order. -/
theorem applyRatingsOrder : Obligations.ApplyRatingsOrder := by
  refine ⟨ratingsValidated, fun n s rest ha hwf => ?_⟩
  refine ⟨orderApplyRatings n s.part, occur_order .applyRatings n s rest ha, ?_⟩
  have hread := readWords_takeCell n 0x3000 9 s.part hwf (by decide)
  split
  · next hidle =>
    have hq : orderApplyRatings n s.part = refuse n .notIdle (takeCell n s.part) := by
      simp only [orderApplyRatings, takeCell_seq, takeCell_orders, hidle, ↓reduceIte]
    exact hq ▸ orderRefused_of n .notIdle [] s.part hwf
  · next hidle =>
    intro v
    constructor
    · intro off hoff hle
      have hlow : lowest v.fails = some off := lowest_of_least _ _ hoff hle
      have hq : orderApplyRatings n s.part =
          finishCell n .badSettings [wordOfNat off] (takeCell n s.part) := by
        simp only [orderApplyRatings, takeCell_seq, takeCell_orders, hidle, ↓reduceIte, hread, hlow, v]
      exact hq ▸ orderRefused_of n .badSettings [wordOfNat off] s.part hwf
    · intro hnone
      have hlow : lowest v.fails = none := (lowest_eq_none _).2 hnone
      have hcode : appliedCode v = if v.clamps = [] then .ok else .appliedWithClamps := by
        simp [appliedCode]
      have hq : orderApplyRatings n s.part = finishCell n (appliedCode v) (clampValues v)
          ((takeCell n s.part).setOrders { (takeCell n s.part).orders with
            ratings := Ratings.ofWords v.copy, ratingsApplied := true }) := by
        simp only [orderApplyRatings, takeCell_seq, takeCell_orders, hidle, ↓reduceIte, hread, hlow, v]
      rw [hq, ← hcode]
      exact ⟨orderAnswered_of n _ _ s.part _ hwf rfl rfl rfl rfl, rfl,
        (((Part.keeps.refl _ _).take n).setOrders _).finish n _ _⟩

end Sys2Proof.Machine
end

section
/-! RUN: the checks of R18 in their order, then the motors brought in. -/

namespace Sys2Proof.Machine

/-! ## Named motors -/

theorem anyNamed_iff (set : PerMotor Bool) (f : Motor → Bool) :
    anyNamed set f = true ↔ ∃ m, set.get m = true ∧ f m = true := by
  simp only [anyNamed, Motor.all, List.any_cons, List.any_nil, Bool.or_false, Bool.or_eq_true,
    Bool.and_eq_true]
  exact ⟨fun h => h.elim (fun h => ⟨.a, h⟩) (fun h => ⟨.b, h⟩),
    fun ⟨m, h⟩ => by cases m with | a => exact .inl h | b => exact .inr h⟩

theorem allRunning_iff (set : PerMotor Bool) (p : Part) :
    allRunning set p.seq = true ↔ ∀ m, set.get m = true → p.motorState m = .running := by
  have h : (∀ m, set.get m = true → p.motorState m = .running) ↔
      (set.a = true → p.seq.motor.a.state = .running) ∧ (set.b = true → p.seq.motor.b.state = .running) :=
    ⟨fun h => ⟨h .a, h .b⟩, fun h m => by cases m with | a => exact h.1 | b => exact h.2⟩
  rw [h]
  simp only [allRunning, Bool.and_eq_true, Bool.or_eq_true, Bool.not_eq_true', beq_iff_eq]
  cases set.a <;> cases set.b <;> simp

/-- The checks of R18 look at nothing that the taking of the cell changes. -/
theorem runRefusal_takeCell (set : PerMotor Bool) (n : CellId) (p : Part) :
    runRefusal set (takeCell n p) = runRefusal set p := rfl

section Cases

variable (n : CellId) (p : Part) (set : PerMotor Bool) (hwf : Memory.wf p.exch.mem = true)
  (hm : motorSetArgument (cellArg p n 0) = some set)

include hwf hm

theorem orderRun_refused (code : ResultCode) (h : runRefusal set p = some code) :
    orderRun n p = refuse n code (takeCell n p) := by
  simp only [orderRun, cellArg_takeCell n n 0 p hwf (by decide), hm, runRefusal_takeCell, h]

theorem orderRun_already (h : runRefusal set p = none) (hr : p.seq.group = .running)
    (hall : allRunning set p.seq = true) :
    orderRun n p = finishCell n .already [] (takeCell n p) := by
  simp only [orderRun, cellArg_takeCell n n 0 p hwf (by decide), hm, runRefusal_takeCell, h, takeCell_seq, hr,
    hall, and_self, ↓reduceIte]

theorem orderRun_accepted (h : runRefusal set p = none)
    (hnot : ¬ (p.seq.group = .running ∧ allRunning set p.seq = true)) :
    orderRun n p =
      let q := setTaken n (beginMagnetizing (joiningOf set p) (takeCell n p))
      q.setOrders { q.orders with run := some { cell := n, named := set, joining := joiningOf set p } } := by
  simp only [orderRun, cellArg_takeCell n n 0 p hwf (by decide), hm, runRefusal_takeCell, h, takeCell_seq, hnot,
    ↓reduceIte]
  rfl

end Cases

/-! ## The conditions of the checks -/

theorem trip_latched_iff (set : PerMotor Bool) (p : Part) :
    (groupCauseLatched p.trip.latched = true ∨ anyNamed set (motorCauseLatched p.trip.latched) = true) ↔
      (∃ l ∈ p.trip.latched, l.cause.owner = none) ∨
        ∃ m, set.get m = true ∧ ∃ l ∈ p.trip.latched, l.cause.owner = some m := by
  simp only [groupCauseLatched_iff, anyNamed_iff, motorCauseLatched_iff]

theorem named_out_iff (set : PerMotor Bool) (p : Part) :
    anyNamed set (fun m => p.motorState m == .out) = true ↔
      ∃ m, set.get m = true ∧ p.motorState m = .out := by
  simp only [anyNamed_iff, beq_iff_eq]

theorem named_notUp_iff (set : PerMotor Bool) (p : Part) :
    anyNamed set (fun m => (p.links.get m).state != .up) = true ↔
      ∃ m, set.get m = true ∧ (p.links.get m).state ≠ .up := by
  simp only [anyNamed_iff, bne_iff_ne]

theorem named_notStopped_iff (set : PerMotor Bool) (p : Part) :
    anyNamed set (fun m => p.motorState m != .stopped) = true ↔
      ∃ m, set.get m = true ∧ p.motorState m ≠ .stopped := by
  simp only [anyNamed_iff, bne_iff_ne]

theorem named_neither_iff (set : PerMotor Bool) (p : Part) :
    anyNamed set (fun m => p.motorState m != .stopped && p.motorState m != .running) = true ↔
      ∃ m, set.get m = true ∧ p.motorState m ≠ .stopped ∧ p.motorState m ≠ .running := by
  simp only [anyNamed_iff, Bool.and_eq_true, bne_iff_ne]

theorem single_iff (set : PerMotor Bool) :
    (set.a && set.b) = false ↔ ¬ (set.a = true ∧ set.b = true) := by
  cases set.a <;> cases set.b <;> simp

/-- What the taking of an accepted RUN leaves (R18, R99, R113). -/
theorem orderRun_accepted_spec (n : CellId) (p : Part) (set : PerMotor Bool)
    (hwf : Memory.wf p.exch.mem = true) (hm : motorSetArgument (cellArg p n 0) = some set)
    (h : runRefusal set p = none) (hnot : ¬ (p.seq.group = .running ∧ allRunning set p.seq = true)) :
    let q := orderRun n p
    OrderAccepted n p q ∧
    (∀ m, q.seq.motor.get m =
      if set.get m = true ∧ p.motorState m = .stopped then
        { state := .magnetizing, stepCount := 0, idRef := 0, ramp := 0, ramping := false }
      else p.seq.motor.get m) ∧
    q.seq = { p.seq with motor := q.seq.motor } ∧
    q.orders = { p.orders with
      taken := p.orders.taken + 1#32
      run := some
        { cell := n, named := set
          joining := { a := set.a && p.motorState .a == .stopped
                       b := set.b && p.motorState .b == .stopped } } } ∧
    Part.keeps [.exch, .orders, .seq] p q := by
  intro q
  have hq : q = orderRun n p := rfl
  rw [orderRun_accepted n p set hwf hm h hnot] at hq
  rw [hq]
  have hfresh : ∀ (c : Bool) (st : MotorState) (x : MotorSeq),
      (if (c && st == .stopped) = true then MotorSeq.magnetizingFresh else x) =
        if c = true ∧ st = .stopped then
          { state := .magnetizing, stepCount := 0, idRef := 0, ramp := 0, ramping := false } else x := by
    intro c st x
    simp only [Bool.and_eq_true, beq_iff_eq]
    rfl
  refine ⟨orderAccepted_of n p (beginMagnetizing (joiningOf set p) (takeCell n p)) _ hwf rfl rfl rfl,
    fun m => ?_, rfl, rfl, ((((Part.keeps.refl _ _).take n).setSeq _).taken n).setOrders _⟩
  cases m
  · exact hfresh set.a (p.motorState .a) _
  · exact hfresh set.b (p.motorState .b) _

/-- Settles O4, by the checks of R18 in their order. -/
theorem runOrder : Obligations.RunOrder := by
  intro n s rest ha hwf
  refine ⟨orderRun n s.part, occur_order .run n s rest ha, ?_⟩
  split
  · next hm =>
    have hq : orderRun n s.part = refuse n .badArgument (takeCell n s.part) := by
      simp only [orderRun, cellArg_takeCell n n 0 s.part hwf (by decide), hm]
    exact hq ▸ orderRefused_of n .badArgument [] s.part hwf
  · next set hm =>
    intro named
    have hrefused : ∀ code, runRefusal set s.part = some code →
        OrderRefused n code [] s.part (orderRun n s.part) := fun code h =>
      orderRun_refused n s.part set hwf hm code h ▸ orderRefused_of n code [] s.part hwf
    unfold runRefusal at hrefused
    split
    · next hbusy => exact hrefused _ (if_pos hbusy)
    next hbusy =>
    rw [if_neg hbusy] at hrefused
    split
    · next hset => exact hrefused _ (if_pos hset)
    next hset =>
    rw [if_neg hset] at hrefused
    split
    · next hrat => exact hrefused _ (if_pos hrat)
    next hrat =>
    rw [if_neg hrat] at hrefused
    refine ⟨fun h => hrefused _ (if_pos ((trip_latched_iff set s.part).2 h)), fun hlatched => ?_⟩
    replace hlatched := mt (trip_latched_iff set s.part).1 hlatched
    rw [if_neg hlatched] at hrefused
    split
    · next hgroup => exact hrefused _ (if_pos hgroup)
    next hgroup =>
    rw [if_neg hgroup] at hrefused
    refine ⟨fun h => hrefused _ (if_pos ((named_out_iff set s.part).2 h)), fun hout => ?_⟩
    replace hout := mt (named_out_iff set s.part).1 hout
    rw [if_neg hout] at hrefused
    refine ⟨fun h => hrefused _ (if_pos ((named_notUp_iff set s.part).2 h)), fun hup => ?_⟩
    replace hup := mt (named_notUp_iff set s.part).1 hup
    rw [if_neg hup] at hrefused
    split
    · next hsingle =>
      exact hrefused _ (if_pos ⟨hsingle.1, (single_iff set).2 hsingle.2.1, hsingle.2.2⟩)
    next hsingle =>
    replace hsingle : ¬ (s.part.seq.group = .idle ∧ (set.a && set.b) = false ∧
        s.part.settings.singleAllowed = false) :=
      fun h => hsingle ⟨h.1, (single_iff set).1 h.2.1, h.2.2⟩
    rw [if_neg hsingle] at hrefused
    have hnone : ¬ (s.part.seq.group = .idle ∧ named (fun m => s.part.motorState m ≠ .stopped)) →
        ¬ (s.part.seq.group = .running ∧ named (fun m =>
          s.part.motorState m ≠ .stopped ∧ s.part.motorState m ≠ .running)) →
        runRefusal set s.part = none := by
      intro h1 h2
      unfold runRefusal
      rw [if_neg hbusy, if_neg hset, if_neg hrat, if_neg hlatched, if_neg hgroup, if_neg hout, if_neg hup,
        if_neg hsingle, if_neg (fun h => h1 ⟨h.1, (named_notStopped_iff set s.part).1 h.2⟩),
        if_neg (fun h => h2 ⟨h.1, (named_neither_iff set s.part).1 h.2⟩)]
    have hidle : s.part.seq.group = .running → s.part.seq.group ≠ .idle := fun h => by rw [h]; decide
    refine ⟨?_, ?_, ?_⟩
    · rintro (⟨hg, h⟩ | ⟨hg, h⟩)
      · exact hrefused _ (if_pos ⟨hg, (named_notStopped_iff set s.part).2 h⟩)
      · rw [if_neg (fun h => hidle hg h.1)] at hrefused
        exact hrefused _ (if_pos ⟨hg, (named_neither_iff set s.part).2 h⟩)
    · rintro ⟨hg, hall⟩
      have hcheck := hnone (fun h => hidle hg h.1) (fun ⟨_, m, hset, _, hrun⟩ => hrun (hall m hset))
      rw [orderRun_already n s.part set hwf hm hcheck hg ((allRunning_iff set s.part).2 hall)]
      exact orderAlready_of n .already [] s.part hwf
    · rintro (⟨hg, hall⟩ | ⟨hg, hall, m, hset, hstopped⟩)
      · have hrun : s.part.seq.group ≠ .running := fun h => hidle h hg
        exact orderRun_accepted_spec n s.part set hwf hm
          (hnone (fun ⟨_, m, hset, hne⟩ => hne (hall m hset)) (fun h => hrun h.1)) (fun h => hrun h.1)
      · refine orderRun_accepted_spec n s.part set hwf hm (hnone (fun h => hidle hg h.1) ?_) ?_
        · rintro ⟨_, k, hk, hns, hnr⟩
          exact (hall k hk).elim hns hnr
        · rintro ⟨_, h⟩
          rw [(allRunning_iff set s.part).1 h m hset] at hstopped
          cases hstopped

end Sys2Proof.Machine
end

section
/-! CAPTURE: its arguments, the checks of R24 in their order, and the engine that takes it in. -/

namespace Sys2Proof.Machine

/-! ## The arguments -/

/-- The code of a capture engine as an argument gives it (R24). -/
def EngineId.argument : EngineId → Nat
  | .e0 => 0
  | .e1 => 1

theorem engineArgument_eq_some (w : Word) (e : EngineId) :
    engineArgument w = some e ↔ w.toNat = EngineId.argument e := by
  unfold engineArgument
  split
  · next h => rw [h]; cases e <;> decide
  · next h => rw [h]; cases e <;> decide
  · next h0 h1 =>
    cases e with
    | e0 => exact iff_of_false (by simp) h0
    | e1 => exact iff_of_false (by simp) h1

theorem engineArgument_eq_none (w : Word) (h : 1 < w.toNat) : engineArgument w = none := by
  unfold engineArgument
  split <;> first | omega | rfl

theorem startArgument_eq_none (w : Word) (h : w.toNat = 0 ∨ 3 < w.toNat) : startArgument w = none := by
  unfold startArgument
  split <;> first | omega | rfl

theorem startArgument_eq_some (w : Word) (h1 : 1 ≤ w.toNat) (h3 : w.toNat ≤ 3) :
    startArgument w = some (if w.toNat = 1 then .immediate else if w.toNat = 2 then .onTrip else .afterOther) := by
  unfold startArgument
  split
  · next h => simp [h]
  · next h => simp [h]
  · next h => simp [h]
  · next hne1 hne2 hne3 =>
    have hcases : w.toNat = 1 ∨ w.toNat = 2 ∨ w.toNat = 3 := by omega
    rcases hcases with h | h | h
    exacts [absurd h hne1, absurd h hne2, absurd h hne3]

theorem captureRequest_takeCell (n : CellId) (p : Part) (hwf : Memory.wf p.exch.mem = true) :
    captureRequest (takeCell n p) n = captureRequest p n := by
  simp only [captureRequest, cellArg_takeCell n n _ p hwf, Nat.reduceLT]

/-- Arguments outside those listed name no request (R24). -/
theorem captureRequest_eq_none (p : Part) (n : CellId)
    (h : 1 < (cellArg p n 0).toNat ∨ 13 < (cellArg p n 1).toNat ∨ (cellArg p n 2).toNat = 0 ∨
      96 < (cellArg p n 2).toNat ∨ (cellArg p n 7).toNat = 0 ∨ 3 < (cellArg p n 7).toNat) :
    captureRequest p n = none := by
  unfold captureRequest
  dsimp only
  split
  · next e start he hs =>
    refine if_neg (fun hc => ?_)
    rcases h with h | h | h | h | h
    · rw [engineArgument_eq_none _ h] at he; cases he
    · omega
    · omega
    · omega
    · rw [startArgument_eq_none _ h] at hs; cases hs
  · rfl

/-- The request that arguments within the ranges name (R24). -/
theorem captureRequest_eq_some (p : Part) (n : CellId) (e : EngineId)
    (he : (cellArg p n 0).toNat = EngineId.argument e) (hch : (cellArg p n 1).toNat ≤ 13)
    (hb1 : 1 ≤ (cellArg p n 2).toNat) (hb96 : (cellArg p n 2).toNat ≤ 96)
    (hs1 : 1 ≤ (cellArg p n 7).toNat) (hs3 : (cellArg p n 7).toNat ≤ 3) :
    captureRequest p n = some
      { engine := e, channel := (cellArg p n 1).toNat, blocks := (cellArg p n 2).toNat
        base := (cellArg p n 3).toNat + 65536 * (cellArg p n 4).toNat
        limit := (cellArg p n 5).toNat + 65536 * (cellArg p n 6).toNat
        start := if (cellArg p n 7).toNat = 1 then .immediate
          else if (cellArg p n 7).toNat = 2 then .onTrip else .afterOther } := by
  unfold captureRequest
  simp only [(engineArgument_eq_some _ e).2 he, startArgument_eq_some _ hs1 hs3, hch, hb1, hb96, and_self,
    ↓reduceIte, nat32, Nat.mul_comm 65536]

/-! ## The order -/

theorem Engine.guards_iff (e : Engine) : e.guards = true ↔ e.state ≠ .idle := by
  unfold Engine.guards
  cases e.state <;> simp

theorem Engine.waits_iff (e : Engine) : e.waits = true ↔ e.state = .armed ∧ e.start = .afterOther := by
  simp [Engine.waits]

theorem captureRefusal_takeCell (r : CaptureRequest) (n : CellId) (p : Part) :
    captureRefusal r (takeCell n p) = captureRefusal r p := rfl

/-! The checks of R24, one by one. -/

/-- The region of a request is not one that the engine may write to (R24). -/
def CaptureRequest.badRegion (r : CaptureRequest) : Prop :=
  r.base % 512 ≠ 0 ∨ r.base < 0x4000 ∨ 0x10000 ≤ r.base ∨ r.limit < r.last ∨ 0xFFFF < r.last

/-- The region of a request meets that of the other engine (R24). -/
def CaptureRequest.overlaps (r : CaptureRequest) (p : Part) : Prop :=
  let other := p.cap.get r.engine.other
  other.state ≠ .idle ∧ r.base < other.base + other.requested * 512 ∧ other.base ≤ r.last

/-- A request that is to follow an engine which holds no capture, or waits itself (R24). -/
def CaptureRequest.followsNothing (r : CaptureRequest) (p : Part) : Prop :=
  let other := p.cap.get r.engine.other
  r.start = .afterOther ∧ (other.state = .idle ∨ other.state = .armed ∧ other.start = .afterOther)

section Checks

variable {r : CaptureRequest} {p : Part}

theorem captureRefusal_overlap_iff :
    ((p.cap.get r.engine.other).guards = true ∧ r.base < (p.cap.get r.engine.other).regionEnd ∧
      (p.cap.get r.engine.other).base ≤ r.last) ↔ r.overlaps p := by
  rw [Engine.guards_iff]
  rfl

theorem captureRefusal_follow_iff :
    (r.start = .afterOther ∧ ((p.cap.get r.engine.other).state = .idle ∨
      (p.cap.get r.engine.other).waits = true)) ↔ r.followsNothing p := by
  rw [Engine.waits_iff]
  rfl

theorem captureRefusal_busy (h : (p.cap.get r.engine).state ≠ .idle) :
    captureRefusal r p = some .busy := if_pos h

theorem captureRefusal_badRegion (hidle : ¬ (p.cap.get r.engine).state ≠ .idle) (h : r.badRegion) :
    captureRefusal r p = some .badRegion := (if_neg hidle).trans (if_pos h)

theorem captureRefusal_overlap (hidle : ¬ (p.cap.get r.engine).state ≠ .idle) (hregion : ¬ r.badRegion)
    (h : r.overlaps p) : captureRefusal r p = some .overlap :=
  (if_neg hidle).trans ((if_neg hregion).trans (if_pos (captureRefusal_overlap_iff.2 h)))

theorem captureRefusal_nothingToFollow (hidle : ¬ (p.cap.get r.engine).state ≠ .idle)
    (hregion : ¬ r.badRegion) (hover : ¬ r.overlaps p) (h : r.followsNothing p) :
    captureRefusal r p = some .nothingToFollow :=
  (if_neg hidle).trans ((if_neg hregion).trans ((if_neg (mt captureRefusal_overlap_iff.1 hover)).trans
    (if_pos (captureRefusal_follow_iff.2 h))))

theorem captureRefusal_none (hidle : ¬ (p.cap.get r.engine).state ≠ .idle)
    (hregion : ¬ r.badRegion) (hover : ¬ r.overlaps p) (hfollow : ¬ r.followsNothing p) :
    captureRefusal r p = none :=
  (if_neg hidle).trans ((if_neg hregion).trans ((if_neg (mt captureRefusal_overlap_iff.1 hover)).trans
    (if_neg (mt captureRefusal_follow_iff.1 hfollow))))

end Checks

section Cases

variable (n : CellId) (p : Part) (r : CaptureRequest) (hwf : Memory.wf p.exch.mem = true)
  (hr : captureRequest p n = some r)

include hwf hr

theorem orderCapture_refused (code : ResultCode) (h : captureRefusal r p = some code) :
    orderCapture n p = refuse n code (takeCell n p) := by
  simp only [orderCapture, captureRequest_takeCell n p hwf, hr, captureRefusal_takeCell, h]

theorem orderCapture_accepted (h : captureRefusal r p = none) :
    orderCapture n p =
      let q := setTaken n (startCapture r.engine r.channel r.base r.blocks r.start (takeCell n p))
      q.setOrders { q.orders with capture := p.orders.capture.set r.engine (some n) } := by
  simp only [orderCapture, captureRequest_takeCell n p hwf, hr, captureRefusal_takeCell, h]
  rfl

end Cases

/-- Settles O10, by the checks of R24 in their order. -/
theorem captureOrder : Obligations.CaptureOrder := by
  intro n s rest ha hwf
  refine ⟨orderCapture n s.part, occur_order .capture n s rest ha, ?_⟩
  intro engine channel blocks base limit start last
  constructor
  · intro h
    have hq : orderCapture n s.part = refuse n .badArgument (takeCell n s.part) := by
      simp only [orderCapture, captureRequest_takeCell n s.part hwf, captureRequest_eq_none s.part n h]
    exact hq ▸ orderRefused_of n .badArgument [] s.part hwf
  · intro e he hch hb1 hb96 hs1 hs3 other
    have he' : (cellArg s.part n 0).toNat = EngineId.argument e := by cases e <;> exact he
    have hr := captureRequest_eq_some s.part n e he' hch hb1 hb96 hs1 hs3
    have hafter : (if start = 1 then StartCondition.immediate else if start = 2 then .onTrip else .afterOther) =
        .afterOther ↔ start = 3 := by
      split
      · next h => simp [h]
      · split
        · next h => simp [h]
        · simp only [true_iff]; omega
    have hrefused : ∀ code, captureRefusal _ s.part = some code →
        OrderRefused n code [] s.part (orderCapture n s.part) := fun code h =>
      orderCapture_refused n s.part _ hwf hr code h ▸ orderRefused_of n code [] s.part hwf
    split
    · next hbusy => exact hrefused _ (captureRefusal_busy hbusy)
    next hbusy =>
    split
    · next hregion => exact hrefused _ (captureRefusal_badRegion hbusy hregion)
    next hregion =>
    split
    · next hoverlap => exact hrefused _ (captureRefusal_overlap hbusy hregion hoverlap)
    next hoverlap =>
    split
    · next hfollow =>
      exact hrefused _ (captureRefusal_nothingToFollow hbusy hregion hoverlap
        ⟨hafter.2 hfollow.1, hfollow.2⟩)
    next hfollow =>
    rw [orderCapture_accepted n s.part _ hwf hr (captureRefusal_none hbusy hregion hoverlap
      (fun h => hfollow ⟨hafter.1 h.1, h.2⟩))]
    refine ⟨orderAccepted_of n s.part (startCapture e channel base blocks _ (takeCell n s.part)) _ hwf
      rfl rfl rfl, ?_, rfl, ((((Part.keeps.refl _ _).take n).setCap _).taken n).setOrders _⟩
    have hstate : (match (if start = 1 then StartCondition.immediate else if start = 2 then .onTrip
          else .afterOther) with
        | .immediate => EngineState.running
        | .onTrip | .afterOther => .armed) = if start = 1 then .running else .armed := by
      by_cases himm : start = 1
      · simp only [himm, ↓reduceIte]
      · rw [if_neg himm, if_neg himm]
        by_cases htrip : start = 2 <;> simp only [htrip, ↓reduceIte]
    rw [← hstate]
    rfl

end Sys2Proof.Machine
end

section
/-! The host port: the guard's judgement of a write, host reads, and the attention registers. -/

namespace Sys2Proof.Machine

theorem isReady_iff (p : Part) : p.isReady = true ↔ p.phase = .ready := by
  unfold Part.isReady
  cases p.phase <;> simp

theorem isReady_eq_false (p : Part) (h : p.phase ≠ .ready) : p.isReady = false :=
  Bool.eq_false_iff.2 (mt (isReady_iff p).1 h)

/-! ## The guard (R1, R2, R11, R173, R182)

What the guard allows, region by region, as the map before R1 has it. -/

/-- A write to an order cell that R11 allows. -/
def CellWriteAllowed (p : Part) (off : Nat) (value : Word) : Prop :=
  ∃ (n : CellId) (k : Nat), k < 32 ∧ off = 0x100 + 0x40 * n.val + 2 * k ∧
    ((cellState p n = 0#16 ∧ (k = 0 → value = 0#16 ∨ value = 1#16)) ∨
      ((cellState p n = 3#16 ∨ cellState p n = 4#16) ∧ k = 0 ∧ value = 0#16))

/-- A write to the settings pages, the ratings record or the rest of their region. -/
def PageWriteAllowed (off : Nat) : Prop := 0x1000 ≤ off ∧ off < 0x4000

/-- A write to the capture region outside every engine's own region (R182). -/
def CaptureWriteAllowed (p : Part) (off : Nat) : Prop :=
  0x4000 ≤ off ∧ off < 0x10000 ∧ ∀ e, (p.cap.get e).state ≠ .idle →
    off < (p.cap.get e).base ∨ (p.cap.get e).base + 512 * (p.cap.get e).requested ≤ off

/-- The freeing of a READY slot (R173). -/
def SlotWriteAllowed (p : Part) (off : Nat) (value : Word) : Prop :=
  ∃ x : SlotId, off = 0x10000 + 0x4000 * x.number ∧ value = 0#16 ∧ slotState p x = 2#16

/-- A write that the map, the cell, the slot and the capture regions allow. -/
def HostWriteAllowed (p : Part) (off : Nat) (value : Word) : Prop :=
  CellWriteAllowed p off value ∨ PageWriteAllowed off ∨ CaptureWriteAllowed p off ∨
    SlotWriteAllowed p off value

theorem guardCell_iff (p : Part) (n : CellId) (stateWord : Bool) (value : Word) :
    guardCell p n stateWord value = true ↔
      (cellState p n = 0#16 ∧ (stateWord = true → value = 0#16 ∨ value = 1#16)) ∨
        ((cellState p n = 3#16 ∨ cellState p n = 4#16) ∧ stateWord = true ∧ value = 0#16) := by
  unfold guardCell
  dsimp only
  split
  · next h =>
    have hnot : ¬ (cellState p n = 3#16 ∨ cellState p n = 4#16) := by rw [h]; decide
    rw [or_iff_left (fun hc => hnot hc.1)]
    cases stateWord <;> simp [h]
  · next h =>
    split
    · next h' => simp [h, h']
    · next h' => simp [h, h']

theorem guardSlot_iff (p : Part) (x : SlotId) (stateWord : Bool) (value : Word) :
    guardSlot p x stateWord value = true ↔
      stateWord = true ∧ value = 0#16 ∧ slotState p x = 2#16 := by
  simp [guardSlot, and_assoc]

theorem cellAt_word (n : CellId) (k : Nat) (hk : k < 32) : cellAt (0x100 + 0x40 * n.val + 2 * k) = n := by
  refine Fin.ext ?_
  have := n.isLt
  simp only [cellAt, Fin.ofNat, Config.cellBase, Config.cellBytes]
  omega

/-- Every even offset of the cell region is a word of one cell. -/
theorem cellAt_offset (off : Nat) (h : 0x100 ≤ off) (h' : off < 0x500) (heven : off % 2 = 0) :
    off = 0x100 + 0x40 * (cellAt off).val + 2 * ((off - 0x100) % 0x40 / 2) := by
  simp only [cellAt, Fin.ofNat, Config.cellBase, Config.cellBytes]
  omega

theorem slotAt_base (x : SlotId) : slotAt (0x10000 + 0x4000 * x.number) = x := by
  cases x <;> rfl

theorem slotAt_offset (off : Nat) (h : 0x10000 ≤ off) (h' : off < 0x20000)
    (hbase : (off - 0x10000) % 0x4000 = 0) : off = 0x10000 + 0x4000 * (slotAt off).number := by
  have hcases : off = 0x10000 ∨ off = 0x14000 ∨ off = 0x18000 ∨ off = 0x1C000 := by omega
  rcases hcases with rfl | rfl | rfl | rfl <;> rfl

theorem covers_eq_false_iff (e : Engine) (off : Nat) :
    e.covers off = false ↔ (e.state ≠ .idle → off < e.base ∨ e.base + 512 * e.requested ≤ off) := by
  rw [← Bool.not_eq_true, ← Engine.guards_iff]
  have hend : e.regionEnd = e.base + 512 * e.requested := by rw [Engine.regionEnd, Nat.mul_comm]
  simp only [Engine.covers, Bool.and_eq_true, decide_eq_true_eq, hend]
  constructor
  · intro h hg
    by_contra hno
    exact h ⟨⟨hg, by omega⟩, by omega⟩
  · rintro h ⟨⟨hg, hbase⟩, hlast⟩
    have := h hg
    omega

/-- The guard's judgement, region by region (the table before R1). -/
theorem guardAccepts_eq (p : Part) (off : Nat) (value : Word) :
    guardAccepts p off value =
      if off < 0x100 then false
      else if off < 0x500 then guardCell p (cellAt off) ((off - 0x100) % 0x40 == 0) value
      else if off < 0x1000 then false
      else if off < 0x4000 then true
      else if off < 0x10000 then !EngineId.all.any (fun e => (p.cap.get e).covers off)
      else guardSlot p (slotAt off) ((off - 0x10000) % 0x4000 == 0) value := rfl

theorem guardAccepts_cell (p : Part) (off : Nat) (value : Word) (h : 0x100 ≤ off) (h' : off < 0x500)
    (heven : off % 2 = 0) : guardAccepts p off value = true ↔ CellWriteAllowed p off value := by
  have hg : guardAccepts p off value = guardCell p (cellAt off) ((off - 0x100) % 0x40 == 0) value := by
    rw [guardAccepts_eq, if_neg (by omega), if_pos h']
  rw [hg, guardCell_iff, beq_iff_eq]
  constructor
  · intro hcell
    refine ⟨cellAt off, (off - 0x100) % 0x40 / 2, by omega, cellAt_offset off h h' heven, ?_⟩
    exact hcell.imp (fun ⟨hs, hv⟩ => ⟨hs, fun hk => hv (by omega)⟩)
      (fun ⟨hs, hw, hv⟩ => ⟨hs, by omega, hv⟩)
  · rintro ⟨n, k, hk, rfl, hcell⟩
    rw [cellAt_word n k hk]
    exact hcell.imp (fun ⟨hs, hv⟩ => ⟨hs, fun hw => hv (by omega)⟩)
      (fun ⟨hs, hk0, hv⟩ => ⟨hs, by omega, hv⟩)

theorem guardAccepts_capture (p : Part) (off : Nat) (value : Word) (h : 0x4000 ≤ off)
    (h' : off < 0x10000) : guardAccepts p off value = true ↔ CaptureWriteAllowed p off := by
  have hg : guardAccepts p off value = !EngineId.all.any (fun e => (p.cap.get e).covers off) := by
    rw [guardAccepts_eq, if_neg (by omega), if_neg (by omega), if_neg (by omega), if_neg (by omega), if_pos h']
  rw [hg, Bool.not_eq_true', List.any_eq_false]
  have hmem : ∀ e : EngineId, e ∈ EngineId.all := fun e => by cases e <;> decide
  constructor
  · exact fun hc => ⟨h, h', fun e => (covers_eq_false_iff _ off).1 (Bool.not_eq_true _ ▸ hc e (hmem e))⟩
  · exact fun ⟨_, _, hc⟩ e _ => Bool.not_eq_true _ ▸ (covers_eq_false_iff _ off).2 (hc e)

theorem guardAccepts_slot (p : Part) (off : Nat) (value : Word) (h : 0x10000 ≤ off)
    (h' : off < 0x20000) : guardAccepts p off value = true ↔ SlotWriteAllowed p off value := by
  have hg : guardAccepts p off value = guardSlot p (slotAt off) ((off - 0x10000) % 0x4000 == 0) value := by
    rw [guardAccepts_eq, if_neg (by omega), if_neg (by omega), if_neg (by omega), if_neg (by omega), if_neg (by omega)]
  rw [hg, guardSlot_iff, beq_iff_eq]
  constructor
  · rintro ⟨hbase, hv, hs⟩
    exact ⟨slotAt off, slotAt_offset off h h' hbase, hv, hs⟩
  · rintro ⟨x, rfl, hv, hs⟩
    exact ⟨by omega, hv, by rw [slotAt_base]; exact hs⟩

/-! The regions of one write exclude each other. -/

theorem CellWriteAllowed.bounds {p : Part} {off : Nat} {value : Word} (h : CellWriteAllowed p off value) :
    0x100 ≤ off ∧ off < 0x500 := by
  obtain ⟨n, k, hk, rfl, _⟩ := h
  have := n.isLt
  omega

theorem SlotWriteAllowed.bound {p : Part} {off : Nat} {value : Word} (h : SlotWriteAllowed p off value) :
    0x10000 ≤ off := by
  obtain ⟨x, rfl, _⟩ := h
  omega

/-- The guard accepts exactly what the map, the cell, the slot and the capture regions allow. -/
theorem guardAccepts_iff (p : Part) (off : Nat) (value : Word) (heven : off % 2 = 0) (hoff : off < 0x20000) :
    guardAccepts p off value = true ↔ HostWriteAllowed p off value := by
  have hcell := @CellWriteAllowed.bounds p off value
  have hslot := @SlotWriteAllowed.bound p off value
  unfold HostWriteAllowed
  by_cases h1 : off < 0x100
  · have hg : guardAccepts p off value = false := if_pos h1
    rw [hg]
    refine iff_of_false Bool.false_ne_true ?_
    rintro (h | h | h | h)
    · have := hcell h; omega
    · have := h.1; omega
    · have := h.1; omega
    · have := hslot h; omega
  by_cases h2 : off < 0x500
  · rw [guardAccepts_cell p off value (not_lt.1 h1) h2 heven]
    refine ⟨.inl, ?_⟩
    rintro (h | h | h | h)
    · exact h
    · have := h.1; omega
    · have := h.1; omega
    · have := hslot h; omega
  by_cases h3 : off < 0x1000
  · have hg : guardAccepts p off value = false := by
      rw [guardAccepts_eq, if_neg h1, if_neg h2, if_pos h3]
    rw [hg]
    refine iff_of_false Bool.false_ne_true ?_
    rintro (h | h | h | h)
    · have := hcell h; omega
    · have := h.1; omega
    · have := h.1; omega
    · have := hslot h; omega
  by_cases h4 : off < 0x4000
  · have hg : guardAccepts p off value = true := by
      rw [guardAccepts_eq, if_neg h1, if_neg h2, if_neg h3, if_pos h4]
    exact iff_of_true hg (.inr (.inl ⟨not_lt.1 h3, h4⟩))
  by_cases h5 : off < 0x10000
  · rw [guardAccepts_capture p off value (not_lt.1 h4) h5]
    refine ⟨fun h => .inr (.inr (.inl h)), ?_⟩
    rintro (h | h | h | h)
    · have := hcell h; omega
    · have := h.2; omega
    · exact h
    · have := hslot h; omega
  · rw [guardAccepts_slot p off value (not_lt.1 h5) hoff]
    refine ⟨fun h => .inr (.inr (.inr h)), ?_⟩
    rintro (h | h | h | h)
    · have := hcell h; omega
    · have := h.2; omega
    · have := h.2.1; omega
    · exact h

/-- Settles O22: the guard's judgement is that of the map, and a dropped write is counted. -/
theorem hostWriteJudged : Obligations.HostWriteJudged := by
  intro word value s hready hwf off accepted
  refine ⟨hostWrite word value s.part, rfl, ?_⟩
  have hrdy := (isReady_iff s.part).2 hready
  have hoff : off < 0x20000 := by have := word.isLt; omega
  have hiff : guardAccepts s.part (byteOffset word) value = true ↔ accepted :=
    guardAccepts_iff s.part off value (Nat.mul_mod_right 2 _) hoff
  constructor
  · intro hacc
    have hq : hostWrite word value s.part = s.part.setMem (writeWord s.part.exch.mem off value) :=
      (if_pos hrdy).trans (if_pos (hiff.2 hacc))
    rw [hq]
    exact ⟨readWord_writeWord_same _ _ _ hwf,
      fun a h0 h1 => readByte_writeWord_other _ _ _ _ hwf h0 h1, rfl, rfl,
      (Part.keeps.refl _ _).setMem _⟩
  · intro hdrop
    have hq : hostWrite word value s.part = dropWrite off s.part :=
      (if_pos hrdy).trans (if_neg (mt hiff.1 hdrop))
    rw [hq]
    exact ⟨rfl, raisesOnly_raiseSource .guard _, ((Part.keeps.refl _ _).setExch _).raise .guard⟩

/-! ## Writes that have no effect -/

/-- Settles O23: STATUS is read only, and during STARTING no register and no word is written. -/
theorem ignoredWrites : Obligations.IgnoredWrites := by
  refine ⟨fun _ _ => rfl, fun s hphase => ?_⟩
  have hnot := isReady_eq_false s.part hphase
  have hact : ∀ f : Part → Part, f s.part = s.part → actOn f s = .next s := fun f hf => by
    unfold actOn
    rw [hf]
  refine ⟨fun word value => hact _ ?_, fun value => hact _ ?_, fun value => hact _ ?_, fun value => ?_⟩
  · simp only [hostWrite, hnot, Bool.false_eq_true, ↓reduceIte]
  · simp only [attentionWrite, hnot, Bool.false_eq_true, ↓reduceIte]
  · simp only [routingWrite, hnot, Bool.false_eq_true, ↓reduceIte]
  · have hreq : requestsReset value s.part = false := by simp only [requestsReset, hnot, Bool.false_and]
    show execPartResetRequest value s = _
    simp only [execPartResetRequest, hreq, Bool.false_eq_true, ↓reduceIte]

/-! ## Host reads -/

/-- Three flags above a count of 13 bits, as STATUS shows them (R7). -/
def flagsOverCount (ready settings ratings : Bool) (count : Nat) : Word :=
  (if ready then 0x8000#16 else 0#16) ||| (if settings then 0x4000#16 else 0#16) |||
    (if ratings then 0x2000#16 else 0#16) ||| wordOfNat count

theorem statusWord_eq (p : Part) :
    statusWord p = flagsOverCount p.isReady p.orders.settingsApplied p.orders.ratingsApplied
      (p.acq.frameCount.toNat % 8192) := by
  unfold statusWord flagsOverCount Part.isReady
  cases p.phase <;> rfl

theorem flagsOverCount_flags (ready settings ratings : Bool) (count : Nat) (hcount : count < 8192) :
    (flagsOverCount ready settings ratings count).getLsbD 15 = ready ∧
      (flagsOverCount ready settings ratings count).getLsbD 14 = settings ∧
      (flagsOverCount ready settings ratings count).getLsbD 13 = ratings := by
  have hbit : ∀ i, 13 ≤ i → (wordOfNat count).getLsbD i = false := fun i hi => by
    have hpow : 2 ^ 13 ≤ 2 ^ i := Nat.pow_le_pow_right Nat.zero_lt_two hi
    rw [wordOfNat, BitVec.getLsbD_ofNat, Nat.testBit_lt_two_pow (hcount.trans_le hpow), Bool.and_false]
  simp only [flagsOverCount, BitVec.getLsbD_or, hbit 15 (by decide), hbit 14 (by decide), hbit 13 (by decide)]
  cases ready <;> cases settings <;> cases ratings <;> decide

theorem flagsOverCount_count (ready settings ratings : Bool) (count : Nat) (hcount : count < 8192) :
    (flagsOverCount ready settings ratings count).toNat % 8192 = count := by
  have hlow : ∀ (b : Bool) (w : Word), w.toNat % 2 ^ 13 = 0 → (if b then w else 0#16).toNat % 2 ^ 13 = 0 := by
    intro b w hw
    cases b
    · rfl
    · exact hw
  show _ % 2 ^ 13 = _
  simp only [flagsOverCount, BitVec.toNat_or, Nat.or_mod_two_pow, hlow _ _ (by decide : (0x8000#16).toNat % 2 ^ 13 = 0),
    hlow _ _ (by decide : (0x4000#16).toNat % 2 ^ 13 = 0), hlow _ _ (by decide : (0x2000#16).toNat % 2 ^ 13 = 0),
    Nat.zero_or, wordOfNat, BitVec.toNat_ofNat]
  omega

/-- Settles O24, by the target of the read (`hostReadValue` is the model's own name). -/
theorem hostReadValue_holds : Obligations.HostReadValue := by
  intro target s
  refine ⟨hostReadValue target s.part, rfl, ?_⟩
  have hrdy := isReady_iff s.part
  cases target with
  | memory word => simp only [hostReadValue, hrdy, byteOffset]
  | attention =>
    simp only [hostReadValue, hrdy]
    split
    · refine ⟨?_, fun src => ?_⟩
      · have := s.part.attn.pending.isLt
        simp only [BitVec.truncate_eq_setWidth, BitVec.toNat_setWidth]
        omega
      · cases src <;> simp [Part.raised, Source.number]
    · rfl
  | routing => simp only [hostReadValue, hrdy]
  | control => rfl
  | status =>
    have hcount : s.part.acq.frameCount.toNat % 8192 < 8192 := by omega
    simp only [hostReadValue, statusWord_eq]
    obtain ⟨hready, hsettings, hratings⟩ :=
      flagsOverCount_flags s.part.isReady s.part.orders.settingsApplied s.part.orders.ratingsApplied _ hcount
    exact ⟨by rw [hready, hrdy], hsettings, hratings, flagsOverCount_count _ _ _ _ hcount⟩

/-! ## The attention registers -/

theorem lineAsserted_iff (code : Nat) (a : Attention) :
    lineAsserted code a = true ↔ ∃ src, a.pending.getLsbD src.number = true ∧ routeOf a.routing src = code := by
  have hmem : ∀ src : Source, src ∈ Source.all := fun src => by cases src <;> decide
  simp only [lineAsserted, List.any_eq_true, Bool.and_eq_true, beq_iff_eq, hmem, true_and]

theorem acknowledge_pending (value : Word) (a : Attention) (src : Source) :
    (acknowledge value a).pending.getLsbD src.number =
      (a.pending.getLsbD src.number && !value.getLsbD src.number) := by
  cases src <;> simp [acknowledge, Source.number]

/-- Settles O25, by the bits of the pending set and the fields of the routing. -/
theorem attentionRegistersWritten : Obligations.AttentionRegistersWritten := by
  intro value s hready
  have hrdy := (isReady_iff s.part).2 hready
  refine ⟨⟨s.part.setAttn (acknowledge value s.part.attn), ?_, acknowledge_pending value _, rfl,
    (Part.keeps.refl _ _).setAttn _⟩,
    s.part.setAttn { s.part.attn with routing := routingStored value }, ?_, routeOf_routingStored value,
    rfl, (Part.keeps.refl _ _).setAttn _, lineAsserted_iff 1 _, lineAsserted_iff 2 _⟩
  · show actOn (attentionWrite value) s = _
    simp only [actOn, attentionWrite, hrdy, ↓reduceIte]
  · show actOn (routingWrite value) s = _
    simp only [actOn, routingWrite, hrdy, ↓reduceIte]

end Sys2Proof.Machine
end

section
/-! Resets: what the start of either makes of the blocks, and what the end brings about. -/

namespace Sys2Proof.Machine

/-! ## The reset values (R10, R14, R42, R46, R61, R81, R94, R117, R135, R153, R174, R186) -/

/-- The part with every block at its reset value, but for the phase, the pins, the exchange memory, the thermal
states and the trip unit's two counts. -/
def resetPart (phase : Phase) (pins : Pins) (mem : Memory) (thermal : PerMotor Nat) (sequence : Word)
    (unrecorded : Nat) (p : Part) : Part :=
  { phase, pins
    exch := { mem, guardCount := 0, guardedOffset := 0 }
    attn := Attention.atReset
    orders := OrderUnit.atReset
    acq := Acquisition.atReset (p.acq.enc.map Encoder.restarted)
    ctl := PerMotor.both Control.atReset
    links := PerMotor.both (Link.atReset .down)
    seq := Sequencer.atReset
    allot := Allotment.atReset thermal
    vib := Vibration.atReset
    trip := TripUnit.atReset sequence unrecorded
    cap := { e0 := Engine.atReset, e1 := Engine.atReset } }

theorem powerOnReset_eq (p : Part) :
    powerOnReset p = resetPart .startingPowerOn { p.pins with resetAsserted := true } Memory.atPowerOn
      (PerMotor.both 0) 0#16 0 p := rfl

theorem partReset_eq (p : Part) :
    partReset p = resetPart (.startingPart p.trip.filling.isSome) p.pins
      (zeroRange (closeTruncated p.trip.filling p.exch.mem) Config.cellBase Config.pageA)
      (p.allot.motor.map (fun r => r.thermalH)) p.trip.sequence p.trip.unrecorded p := rfl

theorem resetBlocks_resetPart (phase : Phase) (pins : Pins) (mem : Memory) (thermal : PerMotor Nat)
    (sequence : Word) (unrecorded : Nat) (p : Part) (hphase : phase ≠ .ready) :
    ResetBlocks p (resetPart phase pins mem thermal sequence unrecorded p) where
  guard := ⟨rfl, rfl⟩
  attn := rfl
  orders := rfl
  acq := rfl
  encoder m := by cases m <;> rfl
  control m := by cases m <;> rfl
  link m := by cases m <;> rfl
  motor m := by cases m <;> rfl
  seq := rfl
  limit m := by cases m <;> rfl
  allot := rfl
  channel c := by cases c <;> rfl
  group g := by cases g <;> rfl
  vib := rfl
  trip := rfl
  engine e := by cases e <;> rfl
  lines := by
    refine ⟨fun m => ?_, fun c => BitVec.getLsbD_zero⟩
    cases phase with
    | ready => exact absurd rfl hphase
    | startingPowerOn => rfl
    | startingPart closed => rfl

/-! ## Power-on reset -/

theorem readByte_atPowerOn (a : Nat) (h : 22 ≤ a) : readByte Memory.atPowerOn a = 0#8 := by
  have hne : ∀ k, k < 22 → ¬ k = a := fun k hk => by omega
  simp only [Memory.atPowerOn, readByte, hne _ (by decide : (0x00 : Nat) < 22),
    hne _ (by decide : (0x01 : Nat) < 22), hne _ (by decide : (0x02 : Nat) < 22),
    hne _ (by decide : (0x04 : Nat) < 22), hne _ (by decide : (0x06 : Nat) < 22),
    hne _ (by decide : (0x08 : Nat) < 22), hne _ (by decide : (0x0B : Nat) < 22),
    hne _ (by decide : (0x0F : Nat) < 22), hne _ (by decide : (0x13 : Nat) < 22),
    hne _ (by decide : (0x14 : Nat) < 22), hne _ (by decide : (0x15 : Nat) < 22), ↓reduceIte]

/-- The identity block (R4). -/
theorem readWords_atPowerOn :
    readWords Memory.atPowerOn 0 11 =
      [0x4B32#16, 1#16, 1#16, 16#16, 4#16, 0x4000#16, 0#16, 0xC000#16, 0#16, 512#16, 480#16] := by
  decide

/-- Settles O26: the blocks at their reset values, the memory as R3 and R4 have it. -/
theorem powerOnResetState : Obligations.PowerOnResetState := by
  intro s
  refine ⟨powerOnReset s.part, rfl, rfl, rfl, wf_atPowerOn, readWords_atPowerOn, readByte_atPowerOn,
    ?_, ?_, rfl, rfl⟩
  · rw [powerOnReset_eq]
    exact resetBlocks_resetPart _ _ _ _ _ _ _ (by decide)
  · intro m
    cases m <;> rfl

/-! ## Part reset -/

theorem readByte_closeTruncated (filling : Option Filling) (mem : Memory) (a : Nat)
    (hwf : Memory.wf mem = true)
    (h : ∀ f, filling = some f → a ≠ slotOffset f.slot ∧ a ≠ slotOffset f.slot + 1 ∧
      a ≠ slotOffset f.slot + 0x20 ∧ a ≠ slotOffset f.slot + 0x21) :
    readByte (closeTruncated filling mem) a = readByte mem a := by
  unfold closeTruncated
  split
  · rfl
  · next f =>
    obtain ⟨h0, h1, h20, h21⟩ := h f rfl
    rw [readByte_writeWord_other _ _ _ _ (wf_writeWord _ _ _ hwf) h0 h1,
      readByte_writeWord_other _ _ _ _ hwf h20 h21]

/-- A FILLING slot closed by a part reset reads READY and truncated (R174). -/
theorem readWord_closeTruncated (f : Filling) (mem : Memory) (hwf : Memory.wf mem = true) :
    readWord (closeTruncated (some f) mem) (slotOffset f.slot) = slotReady ∧
      readWord (closeTruncated (some f) mem) (slotOffset f.slot + 0x20) = 1#16 := by
  refine ⟨readWord_writeWord_same _ _ _ (wf_writeWord _ _ _ hwf), ?_⟩
  exact (readWord_writeWord_other _ _ _ _ (wf_writeWord _ _ _ hwf) (by omega)).trans
    (readWord_writeWord_same _ _ _ hwf)

/-- What the bytes of exchange memory read after the start of a part reset (R10). -/
theorem readByte_partReset (p : Part) (a : Nat) :
    readByte (partReset p).exch.mem a =
      if 0x100 ≤ a ∧ a < 0x1000 then 0#8 else readByte (closeTruncated p.trip.filling p.exch.mem) a :=
  readByte_zeroRange _ _ _ _

/-- A word beyond the regions that a part reset zeroes. -/
theorem readWord_partReset (p : Part) (a : Nat) (h : 0x1000 ≤ a) :
    readWord (partReset p).exch.mem a = readWord (closeTruncated p.trip.filling p.exch.mem) a :=
  readWord_congr _ _ _ ((readByte_partReset p a).trans (if_neg (by omega)))
    ((readByte_partReset p (a + 1)).trans (if_neg (by omega)))

theorem requestsReset_iff (value : Word) (p : Part) :
    requestsReset value p = true ↔ p.phase = .ready ∧ value = 0x5A01#16 := by
  simp only [requestsReset, Bool.and_eq_true, isReady_iff, beq_iff_eq]

theorem execPartResetRequest_ready (s : State) (h : s.part.phase = .ready) :
    exec (.partResetRequest 0x5A01#16) s =
      .next { s with agenda := [], part := partReset (finishForReset s).part } :=
  if_pos ((requestsReset_iff _ _).2 ⟨h, rfl⟩)

/-- Finishing for a reset twice is finishing once: between events no close of a record stands in front. -/
theorem finishForReset_idem (s : State) :
    (finishForReset (finishForReset s)).part = (finishForReset s).part := by
  have hb : betweenEvents (finishForReset s).agenda = true := betweenEvents_finishEvent _
  have hf : betweenEvents ((finishForReset s).agenda.filter (fun w => w != .recordClose)) = true := by
    generalize (finishForReset s).agenda = a at hb
    cases a with
    | nil => rfl
    | cons w rest =>
      have hw : (w != Work.recordClose) = true := by
        rw [bne_iff_ne]
        rintro rfl
        cases hb
      rw [List.filter_cons, if_pos hw]
      exact hb
  rw [finishForReset_of_between _ hf]

/-- Settles O27: an event under way is finished, then the blocks and the memory are brought to the values of R10. -/
theorem partResetState : Obligations.PartResetState := by
  refine ⟨fun value s hne => ?_, fun s hready => ⟨betweenEvents_finishEvent _, ?_⟩,
    fun s hready hbetween hwf => ?_⟩
  · exact if_neg (fun h => hne ((requestsReset_iff value s.part).1 h).2)
  · show _ = exec _ (finishForReset s)
    rw [execPartResetRequest_ready s hready,
      execPartResetRequest_ready _ ((finishForReset_preserves s).phase.trans hready), finishForReset_idem]
    have hpending := finishForReset_pending s
    congr 2
    exact hpending.symm
  · refine ⟨partReset s.part, ?_, rfl, rfl, fun a h h' => ?_, fun a h hf => ?_, fun f hf => ?_, ?_, fun m => ?_,
      rfl, rfl⟩
    · rw [execPartResetRequest_ready s hready, finishForReset_of_between s hbetween]
    · rw [readByte_partReset, if_pos ⟨h, h'⟩]
    · rw [readByte_partReset, if_neg (by omega), readByte_closeTruncated _ _ _ hwf hf]
    · have hlow := slotOffset_low f.slot
      obtain ⟨hstate, htruncated⟩ := readWord_closeTruncated f s.part.exch.mem hwf
      rw [readWord_partReset _ _ (by omega), readWord_partReset _ _ (by omega), hf]
      exact ⟨hstate, htruncated⟩
    · rw [partReset_eq]
      exact resetBlocks_resetPart _ _ _ _ _ _ _ (fun h => by cases h)
    · cases m <;> rfl

/-! ## The end of a reset -/

/-- Where some slot is FREE, one of them is the lowest. -/
theorem exists_lowest_free (p : Part) (h : ∃ x, slotState p x = slotFree) :
    ∃ x, slotState p x = slotFree ∧ ∀ y : SlotId, y.number < x.number → slotState p y ≠ slotFree := by
  obtain ⟨x, hx, hmin⟩ := (measure SlotId.number).wf.has_min { x | slotState p x = slotFree } h
  exact ⟨x, hx, fun y hy hfree => hmin y hfree hy⟩

/-- RECORD stays pending over a trip event. -/
theorem TripRecorded.raised_mono {c : Cause} {cls : TripClass} {p q : Part} (h : TripRecorded c cls p q)
    (hp : p.raised .record = true) : q.raised .record = true := by
  cases hf : p.trip.filling with
  | some f => rw [(h.followOn f hf).raised, hp]
  | none =>
    by_cases hfree : ∃ x, slotState p x = slotFree
    · obtain ⟨x, hx, hlow⟩ := exists_lowest_free p hfree
      rw [(h.opened hf x hx hlow).raised, hp, Bool.true_or]
    · obtain ⟨_, hraised, _⟩ := h.unrecorded hf (not_exists.1 hfree)
      rw [hraised, hp]

/-- The part as the end of a reset makes it, before TRIP_IN is looked at (R3, R10, R52, R94). -/
def madeReady (closed : Bool) (p : Part) : Part :=
  let q := (((p.setPhase .ready).setPins { p.pins with resetAsserted := false }).setLinks
    (p.links.map (fun l => { l with state := .syncing }))).setAcq
      { p.acq with enc := p.acq.enc.map Encoder.atResetEnd }
  if closed then raiseSource .record q else q

theorem becomeReady_eq (closed : Bool) (p : Part) :
    becomeReady closed p =
      if (madeReady closed p).pins.tripIn then report .external (madeReady closed p)
      else madeReady closed p := rfl

section MadeReady

variable (closed : Bool) (p : Part)

theorem madeReady_keeps : Part.keeps [.phase, .pins, .links, .acq, .attn] p (madeReady closed p) := by
  have h := ((((Part.keeps.refl [.phase, .pins, .links, .acq, .attn] p).setPhase .ready).setPins
    { p.pins with resetAsserted := false }).setLinks (p.links.map (fun l => { l with state := .syncing }))).setAcq
      { p.acq with enc := p.acq.enc.map Encoder.atResetEnd }
  cases closed with
  | true => exact h.raise .record
  | false => exact h

theorem madeReady_phase : (madeReady closed p).phase = .ready := by cases closed <;> rfl

theorem madeReady_pins : (madeReady closed p).pins = { p.pins with resetAsserted := false } := by
  cases closed <;> rfl

theorem madeReady_links (m : Motor) :
    (madeReady closed p).links.get m = { p.links.get m with state := .syncing } := by
  cases closed <;> cases m <;> rfl

theorem madeReady_encoder (m : Motor) :
    (madeReady closed p).acq.enc.get m = (p.acq.enc.get m).atResetEnd := by
  cases closed <;> cases m <;> rfl

theorem madeReady_acq : (madeReady closed p).acq = { p.acq with enc := (madeReady closed p).acq.enc } := by
  cases closed <;> rfl

theorem madeReady_exch : (madeReady closed p).exch = p.exch := by cases closed <;> rfl

theorem madeReady_trip : (madeReady closed p).trip = p.trip := by cases closed <;> rfl

theorem madeReady_seq : (madeReady closed p).seq = p.seq := by cases closed <;> rfl

theorem madeReady_raises :
    Part.raisesOnly (if closed then [.record] else []) p (madeReady closed p) := by
  cases closed with
  | true => exact raisesOnly_raiseSource .record _
  | false => exact ⟨rfl, fun src => (Bool.or_false _).symm⟩

end MadeReady

/-- The end of a reset: the part made ready, and behind it the trip event of EXTERNAL where TRIP_IN asks for
one (R161). -/
theorem becomeReady_spec (closed : Bool) (p : Part) (hwf : Memory.wf p.exch.mem = true) :
    let q := becomeReady closed p
    Part.keeps [.exch, .attn, .orders, .seq, .trip, .cap] (madeReady closed p) q ∧
    ((madeReady closed p).raised .record = true → q.raised .record = true) ∧
    if p.pins.tripIn = true ∧ isLatched p.trip.latched .external = false then
      TripTaken .external .inhibitAll (madeReady closed p) q ∧ q.seq = (inhibitAllOrder p).seq
    else q = madeReady closed p := by
  intro q
  have hq : q = if p.pins.tripIn then report .external (madeReady closed p) else madeReady closed p := by
    have h := becomeReady_eq closed p
    rwa [madeReady_pins] at h
  have htrip := madeReady_trip closed p
  split
  · next h =>
    obtain ⟨hin, hnew⟩ := h
    rw [if_pos hin, report_of_new _ _ (htrip ▸ hnew)] at hq
    have ht := tripEvent_taken .external .inhibitAll (madeReady closed p) (madeReady_exch closed p ▸ hwf)
    have hseq : (inhibitAllOrder (madeReady closed p)).seq = (inhibitAllOrder p).seq := by
      show Part.seq (Part.setSeq _ _) = Part.seq (Part.setSeq _ _)
      rw [madeReady_seq]
      rfl
    rw [hq]
    exact ⟨ht.keeps, ht.recorded.raised_mono, ht, (tripEvent_seq_inhibitAll _ _).trans hseq⟩
  · next h =>
    have hsame : q = madeReady closed p := by
      by_cases hin : p.pins.tripIn = true
      · rw [hq, if_pos hin]
        exact report_of_latched _ _ (htrip ▸ Bool.not_eq_false _ ▸ fun hl => h ⟨hin, hl⟩)
      · rw [hq, if_neg hin]
    rw [hsame]
    exact ⟨.refl _ _, id, rfl⟩

/-- Settles O28: the part is made ready, then TRIP_IN is looked at. -/
theorem resetEndState : Obligations.ResetEndState := by
  refine ⟨fun s hready => ?_, fun s hphase hwf => ?_⟩
  · show actOn resetEnd s = _
    simp only [actOn, resetEnd, hready]
  obtain ⟨closed, hend, hclosed⟩ : ∃ closed, resetEnd s.part = becomeReady closed s.part ∧
      (closed = true ↔ s.part.phase = .startingPart true) := by
    cases h : s.part.phase with
    | ready => exact absurd h hphase
    | startingPowerOn => exact ⟨false, by simp only [resetEnd, h], by simp⟩
    | startingPart closed => exact ⟨closed, by simp only [resetEnd, h], by simp⟩
  obtain ⟨hkeeps, hrecord, htrip⟩ := becomeReady_spec closed s.part hwf
  have hphase' := hkeeps .phase (by decide)
  have hpins := hkeeps .pins (by decide)
  have hlinks := hkeeps .links (by decide)
  have hacq := hkeeps .acq (by decide)
  simp only [Part.agree] at hphase' hpins hlinks hacq
  have hraises := madeReady_raises closed s.part
  have hcond : (if closed = true then [Source.record] else []) =
      if s.part.phase = .startingPart true then [Source.record] else [] := by
    simp only [hclosed]
  refine ⟨becomeReady closed s.part, ?_, hphase'.trans (madeReady_phase _ _), hpins.trans (madeReady_pins _ _),
    fun m => ?_, fun m => ?_, ?_, fun hc => hrecord ?_, madeReady closed s.part, madeReady_phase _ _, hpins.symm,
    hlinks.symm, hacq.symm, hcond ▸ hraises, madeReady_keeps _ _, htrip⟩
  · show actOn resetEnd s = _
    simp only [actOn, hend]
  · rw [hlinks, madeReady_links]
  · rw [hacq, madeReady_encoder]
    rfl
  · rw [hacq]
    exact madeReady_acq _ _
  · rw [hraises.2, if_pos (hclosed.2 hc)]
    exact Bool.or_true _

end Sys2Proof.Machine
end

section
/-! The live block: what its write stores, field by field (R5). -/

namespace Sys2Proof.Machine

/-! ## Runs of words among named fields -/

theorem readWords_eq_of_run (m : Memory) (base off : Nat) (ws : List Word)
    (h : ∀ f ∈ wordRun off ws, readWord m (base + f.1) = f.2) :
    readWords m (base + off) ws.length = ws := by
  induction ws generalizing off with
  | nil => rfl
  | cons w ws ih =>
    have hw := h (off, w) (List.mem_cons_self)
    have hrest := ih (off + 2) (fun f hf => h f (List.mem_cons_of_mem _ hf))
    show readWord m (base + off) :: readWords m (base + off + 2) ws.length = w :: ws
    rw [hw]
    exact congrArg _ hrest

/-! ## The layout -/

/-- A motor's words in the live block. -/
def liveMotorWords (p : Part) (m : Motor) : List Word :=
  [wordOfNat (p.motorState m).code, wordOf (p.acq.enc.get m).speed,
   shownOnce p.acq.published (wordOfBool (p.acq.enc.get m).speedValid), wordOf (p.ctl.get m).id,
   wordOf (p.ctl.get m).iq, wordOf (p.allot.motor.get m).torqueRef, wordOf (p.allot.motor.get m).estimate,
   wordOf (p.allot.motor.get m).motoring, wordOf (p.allot.motor.get m).regenerating,
   shownOnce p.allot.published (wordOfNat (p.allot.motor.get m).shown.code),
   shownOnce p.allot.published (wordOfNat (p.allot.motor.get m).thermalLevel),
   wordOfNat (p.links.get m).state.code, wordOfNat (p.links.get m).lossCount,
   wordOfNat (p.ctl.get m).limited]

/-- The content of the live block as runs of words that stand together, each at its offset. -/
def liveRuns (p : Part) : List (Nat × List Word) :=
  [(0x04, [wordOfNat p.seq.group.code, wordOfNat p.allot.groupLimited, wordOf p.seq.setpoint,
      wordOf p.seq.reference, wordOf p.seq.demand, wordOf p.acq.driveSpeed, wordOfBool p.acq.driveHeld,
      wordOfNat p.orders.activePage, wordOfNat p.settings.tag, wordOfNat p.orders.applyCount,
      wordOfBool p.orders.ratingsApplied]),
   (0x20, liveMotorWords p .a), (0x40, liveMotorWords p .b),
   (0x60, Accel.all.map (fun c => wordOfNat (p.vib.channel.get c).level)),
   (0x70, Accel.all.map (fun c => wordOfNat (p.vib.channel.get c).state.code)),
   (0x80, Accel.all.map (fun c => wordOfNat (p.vib.channel.get c).samples)),
   (0x90, VibGroup.all.map (fun g => wordOfNat (p.vib.group.get g).state.code)),
   (0x98, VibGroup.all.map (fun g => shownOnce p.vib.published (wordOfNat (p.vib.group.get g).factor))),
   (0xA0, VibGroup.all.map (fun g => wordOfNat (((p.vib.group.get g).holdShown + 999) / 1000))),
   (0xA8, [wordOfNat p.vib.band, wordOfBool p.vib.test.isSome]),
   (0xB0, wordsOf32 (latchedBits p.trip.latched)),
   (0xB4, [p.trip.sequence, wordOfNat p.trip.unrecorded]),
   (0xB8, SlotId.all.map (slotState p)),
   (0xC0, [fillingWord p.trip, wordOfNat p.cap.e0.state.code, wordOfNat p.cap.e0.remaining,
      wordOfNat p.cap.e1.state.code, wordOfNat p.cap.e1.remaining]),
   (0xCA, wordsOf32 p.orders.taken), (0xCE, [wordOfNat p.exch.guardCount]),
   (0xD0, wordsOf32 (BitVec.ofNat 32 p.exch.guardedOffset))]

theorem liveContent_eq_runs (p : Part) :
    liveContent p = (liveRuns p).flatMap (fun r => wordRun r.1 r.2) := by
  simp only [liveContent, liveVibration, liveRuns, List.flatMap_cons, List.flatMap_nil, List.append_assoc,
    List.append_nil]
  rfl

theorem wordRun_offsets (off : Nat) (ws : List Word) :
    (wordRun off ws).map Prod.fst = List.range' off ws.length 2 := by
  induction ws generalizing off with
  | nil => rfl
  | cons w ws ih => rw [wordRun, List.map_cons, ih, List.length_cons, List.range'_succ]

/-- The offsets within the live block that the layout of R5 names, between OPEN and CLOSE: where each run
stands, and its words. -/
def liveOffsets : List Nat :=
  [(0x04, 11), (0x20, 14), (0x40, 14), (0x60, 8), (0x70, 8), (0x80, 8), (0x90, 4), (0x98, 4), (0xA0, 4),
   (0xA8, 2), (0xB0, 2), (0xB4, 2), (0xB8, 4), (0xC0, 5), (0xCA, 2), (0xCE, 1), (0xD0, 2)].flatMap
    (fun r => List.range' r.1 r.2 2)

theorem liveContent_offsets (p : Part) : (liveContent p).map Prod.fst = liveOffsets := by
  simp only [liveContent_eq_runs, List.map_flatMap, wordRun_offsets]
  rfl

theorem liveOffsets_apart : liveOffsets.Pairwise (fun x y => x + 2 ≤ y ∨ y + 2 ≤ x) := by
  have h : liveOffsets.Pairwise (fun x y => x + 2 ≤ y) := by decide +kernel
  exact h.imp .inl

theorem liveOffsets_bounds : ∀ off ∈ liveOffsets, 0x04 ≤ off ∧ off + 2 ≤ 0xD4 := by decide +kernel

theorem liveContent_bounds (p : Part) (f : Nat × Word) (hf : f ∈ liveContent p) :
    f.1 ∈ liveOffsets ∧ 0x04 ≤ f.1 ∧ f.1 + 2 ≤ 0xD4 :=
  have hmem : f.1 ∈ liveOffsets := liveContent_offsets p ▸ List.mem_map_of_mem hf
  ⟨hmem, liveOffsets_bounds _ hmem⟩

/-- The offsets between the named ones. -/
def liveGaps : List Nat := [0x1A, 0x1C, 0x1E, 0x3C, 0x3E, 0x5C, 0x5E, 0xAC, 0xAE]

theorem liveGaps_apart :
    ∀ off ∈ liveGaps, 0x04 ≤ off ∧ off + 2 ≤ 0xD4 ∧ ∀ o ∈ liveOffsets, off + 2 ≤ o ∨ o + 2 ≤ off := by
  decide +kernel

/-! ## The write -/

section Write

variable (p : Part) (hwf : Memory.wf p.exch.mem = true)

/-- The memory with OPEN written and the block cleared behind it. -/
def liveCleared (p : Part) : Memory :=
  zeroRange (writeWords p.exch.mem Config.liveBase (wordsOf32 p.acq.frameCount)) (Config.liveBase + 0x04)
    Config.pageA

/-- The memory with every content field written too. -/
def liveFilled (p : Part) : Memory := writeFields (liveCleared p) Config.liveBase (liveContent p)

theorem liveBlockWrite_mem (p : Part) :
    (liveBlockWrite p).exch.mem = writeWords (liveFilled p) (Config.liveBase + 0xD4) (wordsOf32 p.acq.frameCount) := by
  simp only [liveBlockWrite, liveFilled, liveCleared, Part.setMem_mem]

include hwf

theorem wf_liveCleared : Memory.wf (liveCleared p) = true := wf_zeroRange _ _ _ (wf_writeWords _ _ _ hwf)

theorem wf_liveFilled : Memory.wf (liveFilled p) = true := wf_writeFields _ _ _ (wf_liveCleared p hwf)

/-- A word outside CLOSE is as the content fields leave it. -/
theorem readWord_liveBlockWrite (a : Nat) (h : a + 2 ≤ 0x5D4 ∨ 0x5D8 ≤ a) :
    readWord (liveBlockWrite p).exch.mem a = readWord (liveFilled p) a := by
  have hlen : (wordsOf32 p.acq.frameCount).length = 2 := rfl
  rw [liveBlockWrite_mem]
  exact readWord_writeWords_other _ _ _ _ (wf_liveFilled p hwf) (by rw [hlen]; exact h)

theorem live_field (f : Nat × Word) (hf : f ∈ liveContent p) :
    readWord (liveBlockWrite p).exch.mem (0x500 + f.1) = f.2 := by
  obtain ⟨_, _, hend⟩ := liveContent_bounds p f hf
  rw [readWord_liveBlockWrite p hwf _ (by omega)]
  exact readWord_writeFields_same _ _ _ (wf_liveCleared p hwf)
    (liveContent_offsets p ▸ liveOffsets_apart) f hf

/-- Each run of the content is read together. -/
theorem live_runs :
    ∀ r ∈ liveRuns p, readWords (liveBlockWrite p).exch.mem (0x500 + r.1) r.2.length = r.2 := by
  refine fun r hr => readWords_eq_of_run _ _ _ _ (fun f hf => live_field p hwf f ?_)
  rw [liveContent_eq_runs]
  exact List.mem_flatMap.2 ⟨r, hr, hf⟩

/-- A word of the block that the layout does not name reads 0. -/
theorem live_unnamed (off : Nat) (h : 0x04 ≤ off) (h' : off + 2 ≤ 0xD4)
    (hoff : ∀ o ∈ liveOffsets, off + 2 ≤ o ∨ o + 2 ≤ off) :
    readWord (liveBlockWrite p).exch.mem (0x500 + off) = 0#16 := by
  have hapart : ∀ f ∈ liveContent p, 0x500 + off + 2 ≤ 0x500 + f.1 ∨ 0x500 + f.1 + 2 ≤ 0x500 + off := by
    intro f hf
    have := hoff f.1 (liveContent_bounds p f hf).1
    omega
  rw [readWord_liveBlockWrite p hwf _ (by omega), liveFilled,
    readWord_writeFields_other _ _ _ _ (wf_liveCleared p hwf) hapart]
  exact readWord_zeroRange_same _ _ _ _ (show 0x504 ≤ _ by omega) (show _ ≤ 0x1000 by omega)

/-- The words of the block that the layout does not name. -/
theorem live_gaps : ∀ off ∈ liveGaps, readWord (liveBlockWrite p).exch.mem (0x500 + off) = 0#16 := by
  intro off hoff
  obtain ⟨hlow, hend, hapart⟩ := liveGaps_apart off hoff
  exact live_unnamed p hwf off hlow hend hapart

theorem live_open : readWords (liveBlockWrite p).exch.mem 0x500 2 = wordsOf32 p.acq.frameCount := by
  have hapart : ∀ a, a + 2 ≤ 0x504 → readWord (liveBlockWrite p).exch.mem a =
      readWord (writeWords p.exch.mem 0x500 (wordsOf32 p.acq.frameCount)) a := by
    intro a ha
    have hfields : ∀ f ∈ liveContent p, a + 2 ≤ 0x500 + f.1 ∨ 0x500 + f.1 + 2 ≤ a := by
      intro f hf
      obtain ⟨_, hlow, _⟩ := liveContent_bounds p f hf
      omega
    rw [readWord_liveBlockWrite p hwf _ (by omega), liveFilled,
      readWord_writeFields_other _ _ _ _ (wf_liveCleared p hwf) hfields]
    exact readWord_zeroRange_other _ _ _ _ (.inl ha)
  have hsame := readWords_writeWords_same p.exch.mem 0x500 (wordsOf32 p.acq.frameCount) hwf
  simp only [readWords, hapart 0x500 (by decide), hapart (0x500 + 2) (by decide)]
  exact hsame

theorem live_close : readWords (liveBlockWrite p).exch.mem 0x5D4 2 = wordsOf32 p.acq.frameCount := by
  rw [liveBlockWrite_mem]
  exact readWords_writeWords_same _ _ (wordsOf32 p.acq.frameCount) (wf_liveFilled p hwf)

/-- A byte outside OPEN, the named words and CLOSE is as the clearing leaves it. -/
theorem readByte_liveBlockWrite (a : Nat) (h : a < 0x500 ∨ 0x5D8 ≤ a) :
    readByte (liveBlockWrite p).exch.mem a =
      if 0x504 ≤ a ∧ a < 0x1000 then 0#8 else readByte p.exch.mem a := by
  have hlen : (wordsOf32 p.acq.frameCount).length = 2 := rfl
  have hfields : ∀ f ∈ liveContent p, a ≠ 0x500 + f.1 ∧ a ≠ 0x500 + f.1 + 1 := by
    intro f hf
    obtain ⟨_, hlow, hend⟩ := liveContent_bounds p f hf
    omega
  have hclose : a < 0x5D4 ∨ 0x5D4 + 2 * (wordsOf32 p.acq.frameCount).length ≤ a := by omega
  have hopen : a < 0x500 ∨ 0x500 + 2 * (wordsOf32 p.acq.frameCount).length ≤ a := by omega
  rw [liveBlockWrite_mem, readByte_writeWords_other _ _ _ _ (wf_liveFilled p hwf) hclose, liveFilled,
    readByte_writeFields_other _ _ _ _ (wf_liveCleared p hwf) hfields, liveCleared, readByte_zeroRange,
    readByte_writeWords_other _ _ _ _ hwf hopen]

end Write

theorem liveBlockWrite_guard (p : Part) :
    (liveBlockWrite p).exch.guardCount = p.exch.guardCount ∧
      (liveBlockWrite p).exch.guardedOffset = p.exch.guardedOffset := by
  simp only [liveBlockWrite, Part.setMem_guardCount, Part.setMem_guardedOffset, and_self]

theorem liveBlockWrite_keeps (p : Part) : Part.keeps [.exch] p (liveBlockWrite p) :=
  (Part.keeps.refl _ _).setMem _

/-- Settles O30, run by run along the layout of R5. -/
theorem liveBlockShown : Obligations.LiveBlockShown := by
  intro p hwf q live flag once
  have hq : q = liveBlockWrite p := rfl
  clear_value q
  subst hq
  have hruns := live_runs p hwf
  simp only [liveRuns, List.forall_mem_cons] at hruns
  obtain ⟨hdrive, hmotorA, hmotorB, hlevels, hstates, hsamples, hgroups, hfactors, hholds, hband, hlatched,
    htrips, hslots, hengines, htaken, hguard, hguarded, -⟩ := hruns
  simp only [List.length_cons, List.length_nil, SlotId.all, List.map_cons, List.map_nil, readWords,
    List.cons.injEq, Nat.reduceAdd, and_true] at hdrive hband htrips hslots hengines hguard
  obtain ⟨h04, h06, h08, h0A, h0C, h0E, h10, h12, h14, h16, h18⟩ := hdrive
  obtain ⟨hA8, hAA⟩ := hband
  obtain ⟨hB4, hB6⟩ := htrips
  obtain ⟨hB8, hBA, hBC, hBE⟩ := hslots
  obtain ⟨hC0, hC2, hC4, hC6, hC8⟩ := hengines
  have hgaps := live_gaps p hwf
  simp only [liveGaps, List.forall_mem_cons, Nat.reduceAdd] at hgaps
  obtain ⟨h1A, h1C, h1E, h3C, h3E, h5C, h5E, hAC, hAE, -⟩ := hgaps
  refine ⟨live_open p hwf, live_close p hwf, h04, h06, h08, h0A, h0C, h0E, h10, h12, h14, h16, h18,
    fun m => ?_, hlevels, hstates, hsamples, hgroups, hfactors, hholds, hA8, hAA, hlatched, hB4, hB6,
    fun x => ?_, hC0, hC2, hC4, hC6, hC8, htaken, hguard, hguarded, ?_, ?_, ?_, ?_,
    fun a h h' => ?_, ⟨fun a ha => ?_, liveBlockWrite_guard p⟩, liveBlockWrite_keeps p⟩
  · cases m with
    | a => exact hmotorA
    | b => exact hmotorB
  · cases x with
    | s0 => exact hB8
    | s1 => exact hBA
    | s2 => exact hBC
    | s3 => exact hBE
  · simp only [readWords, Nat.reduceAdd, h1A, h1C, h1E]
  · simp only [readWords, Nat.reduceAdd, h3C, h3E]
  · simp only [readWords, Nat.reduceAdd, h5C, h5E]
  · simp only [readWords, Nat.reduceAdd, hAC, hAE]
  · exact (readByte_liveBlockWrite p hwf a (.inr h)).trans (if_pos ⟨by omega, h'⟩)
  · exact (readByte_liveBlockWrite p hwf a (by omega)).trans (if_neg (by omega))

end Sys2Proof.Machine
end

section
/-! Orders that finish other cells than their own: what a chain of finished cells stores and raises; then
LINK_RESET and CAPTURE_CANCEL. -/

namespace Sys2Proof.Machine

/-! ## The bytes that finishing a cell stores to -/

/-- The bytes that the finishing of a cell, or its being set TAKEN, stores to: the taken frame is not among
them (R13). -/
def cellResultByte (n : CellId) (a : Nat) : Prop :=
  cellOffset n ≤ a ∧ a < cellOffset n + 0x20 ∧ ¬ (cellOffset n + 0x02 ≤ a ∧ a < cellOffset n + 0x0A)

theorem cellResultByte.answer {n : CellId} {a : Nat} (h : cellResultByte n a) : cellAnswerByte n a := by
  unfold cellResultByte at h
  unfold cellAnswerByte
  omega

/-- The bytes of one cell are not those of another. -/
theorem cellAnswerByte.cell_eq {n k : CellId} {a : Nat} (h : cellAnswerByte n a) (h' : cellAnswerByte k a) :
    n = k := by
  by_contra hne
  have := cellOffset_apart n k hne
  unfold cellAnswerByte at h h'
  omega

/-- No finished cell stores to a taken frame, its own or another's. -/
theorem cellResultByte.not_takenFrame {n k : CellId} {a : Nat} (h : cellResultByte k a) :
    ¬ (cellOffset n + 0x06 ≤ a ∧ a < cellOffset n + 0x0A) := by
  intro ha
  have hn : cellAnswerByte n a := by unfold cellAnswerByte; omega
  obtain rfl := hn.cell_eq h.answer
  unfold cellResultByte at h
  omega

theorem stores_finishedMemory_result (m : Memory) (n : CellId) (frame : BitVec 32) (c : ResultCode)
    (vs : List Word) : Stores (cellResultByte n) m (finishedMemory m n frame c vs) := by
  intro h
  obtain ⟨hwf, _, _, _, _, hother⟩ := finishedMemory_spec m n frame c vs h
  refine ⟨hwf, fun a ha => hother a ?_ ?_ ?_⟩ <;> unfold cellResultByte at ha <;> omega

/-! ## Chains of finished cells -/

/-- From `p` to `q` the exchange memory is stored to inside `stored` alone, and the frame count stands. -/
structure Part.Writes (stored : Nat → Prop) (p q : Part) : Prop where
  mem : Stores stored p.exch.mem q.exch.mem
  guardCount : q.exch.guardCount = p.exch.guardCount
  guardedOffset : q.exch.guardedOffset = p.exch.guardedOffset
  frame : q.acq.frameCount = p.acq.frameCount

namespace Part.Writes

variable {stored : Nat → Prop} {p q r : Part}

theorem refl (stored : Nat → Prop) (p : Part) : p.Writes stored p := ⟨Stores.refl _ _, rfl, rfl, rfl⟩

theorem trans (h : p.Writes stored q) (h' : q.Writes stored r) : p.Writes stored r :=
  ⟨h.mem.trans h'.mem, h'.guardCount.trans h.guardCount, h'.guardedOffset.trans h.guardedOffset,
    h'.frame.trans h.frame⟩

theorem mono {wider : Nat → Prop} (h : p.Writes stored q) (hsub : ∀ a, stored a → wider a) :
    p.Writes wider q := ⟨h.mem.mono hsub, h.guardCount, h.guardedOffset, h.frame⟩

/-- What is done to the other blocks does not count. -/
theorem of_exch (h : p.Writes stored q) (hexch : r.exch = q.exch) (hacq : r.acq = q.acq) :
    p.Writes stored r :=
  ⟨hexch ▸ h.mem, hexch ▸ h.guardCount, hexch ▸ h.guardedOffset, hacq ▸ h.frame⟩

theorem setOrders (h : p.Writes stored q) (v : OrderUnit) : p.Writes stored (q.setOrders v) :=
  h.of_exch rfl rfl

theorem setSeq (h : p.Writes stored q) (v : Sequencer) : p.Writes stored (q.setSeq v) := h.of_exch rfl rfl

theorem setCap (h : p.Writes stored q) (v : PerEngine Engine) : p.Writes stored (q.setCap v) :=
  h.of_exch rfl rfl

theorem finish (h : p.Writes stored q) (n : CellId) (code : ResultCode) (values : List Word)
    (hn : ∀ a, cellResultByte n a → stored a) : p.Writes stored (finishCell n code values q) :=
  h.trans ⟨(stores_finishedMemory_result _ _ _ _ _).mono hn, rfl, rfl, rfl⟩

theorem setTaken (h : p.Writes stored q) (n : CellId) (hn : ∀ a, cellResultByte n a → stored a) :
    p.Writes stored (setTaken n q) :=
  h.trans ⟨(stores_writeWord _ _ _).mono (fun a ha => hn a (by unfold cellResultByte; omega)), rfl, rfl, rfl⟩

theorem take (p : Part) (n : CellId) : p.Writes (cellAnswerByte n) (takeCell n p) := by
  have hlen : (wordsOf32 p.acq.frameCount).length = 2 := rfl
  refine ⟨(stores_writeWords _ _ _).mono (fun a ha => ?_), rfl, rfl, rfl⟩
  rw [hlen] at ha
  unfold cellAnswerByte
  omega

theorem endRun (h : p.Writes stored q) (code : ResultCode)
    (hn : ∀ r, q.orders.run = some r → ∀ a, cellResultByte r.cell a → stored a) :
    p.Writes stored (finishRun code q) := by
  unfold finishRun
  split
  · exact h
  · next r hr => exact (h.setOrders _).finish _ _ _ (hn r hr)

theorem endStop (h : p.Writes stored q) (code : ResultCode)
    (hn : ∀ k, q.orders.stop = some k → ∀ a, cellResultByte k a → stored a) :
    p.Writes stored (finishStop code q) := by
  unfold finishStop
  split
  · exact h
  · next k hk => exact (h.setOrders _).finish _ _ _ (hn k hk)

theorem endCapture (h : p.Writes stored q) (e : EngineId) (code : ResultCode) (values : List Word)
    (hn : ∀ k, q.orders.capture.get e = some k → ∀ a, cellResultByte k a → stored a) :
    p.Writes stored (finishCapture e code values q) := by
  unfold finishCapture
  split
  · exact h
  · next k hk => exact (h.setOrders _).finish _ _ _ (hn k hk)

theorem endLinkTest (h : p.Writes stored q) (m : Motor) (code : ResultCode) (values : List Word)
    (hn : ∀ k, q.orders.linkTest.get m = some k → ∀ a, cellResultByte k a → stored a) :
    p.Writes stored (finishLinkTest m code values q) := by
  unfold finishLinkTest
  split
  · exact h
  · next k hk => exact (h.setOrders _).finish _ _ _ (hn k hk)

/-! What a chain leaves, read off its bytes. -/

theorem wf (h : p.Writes stored q) (hwf : Memory.wf p.exch.mem = true) : Memory.wf q.exch.mem = true :=
  (h.mem hwf).1

theorem storesOnly (h : p.Writes stored q) (hwf : Memory.wf p.exch.mem = true) :
    Part.storesOnly stored p q := ⟨(h.mem hwf).2, h.guardCount, h.guardedOffset⟩

/-- The taken frame stays where no taken frame is stored to. -/
theorem cellTakenAt {n : CellId} (h : (takeCell n p).Writes stored q) (hwf : Memory.wf p.exch.mem = true)
    (hframe : ∀ a, stored a → ¬ (cellOffset n + 0x06 ≤ a ∧ a < cellOffset n + 0x0A))
    (hcount : q.orders.taken = p.orders.taken + 1#32) : CellTakenAt n p q := by
  obtain ⟨hwf', htaken, _⟩ := takeCell_spec n p hwf
  refine ⟨?_, hcount⟩
  rw [← htaken]
  exact readWords_congr _ _ _ _ (fun b hb hb' => (h.mem hwf').2 b (fun hs => hframe b hs ⟨hb, hb'⟩))

/-- A finished cell stays so while only other bytes are stored to. -/
theorem cellFinished {n : CellId} {code : ResultCode} {values : List Word} (h : q.Writes stored r)
    (hwf : Memory.wf q.exch.mem = true) (hf : CellFinished n code values p q)
    (hother : ∀ a, stored a → ¬ cellAnswerByte n a) : CellFinished n code values p r :=
  hf.congr (fun a ha => (h.mem hwf).2 a (fun hs => hother a hs ha))

/-- A cell just finished, at the frame count of the part that the chain began with. -/
theorem finishedNow (h : p.Writes stored q) (hwf : Memory.wf p.exch.mem = true) (n : CellId)
    (code : ResultCode) (values : List Word) : CellFinished n code values p (finishCell n code values q) := by
  have hf := cellFinished_finishCell n code values q (h.wf hwf)
  exact ⟨hf.state, hf.code, hf.values, h.frame ▸ hf.doneFrame⟩

/-! The cell of an entry that is emptied is finished. -/

variable {code : ResultCode} {values : List Word}

theorem endRun_finished (h : p.Writes stored q) (hwf : Memory.wf p.exch.mem = true) (x : RunEntry)
    (hx : q.orders.run = some x) : CellFinished x.cell code [] p (finishRun code q) := by
  simp only [finishRun, hx]
  exact (h.setOrders _).finishedNow hwf x.cell code []

theorem endCapture_finished (h : p.Writes stored q) (hwf : Memory.wf p.exch.mem = true) (e : EngineId)
    (k : CellId) (hk : q.orders.capture.get e = some k) :
    CellFinished k code values p (finishCapture e code values q) := by
  simp only [finishCapture, hk]
  exact (h.setOrders _).finishedNow hwf k code values

theorem endLinkTest_finished (h : p.Writes stored q) (hwf : Memory.wf p.exch.mem = true) (m : Motor)
    (k : CellId) (hk : q.orders.linkTest.get m = some k) :
    CellFinished k code values p (finishLinkTest m code values q) := by
  simp only [finishLinkTest, hk]
  exact (h.setOrders _).finishedNow hwf k code values

end Part.Writes

/-- A cell finished at the frame count of one part is finished at that of any with the same count. -/
theorem CellFinished.of_frame {n : CellId} {code : ResultCode} {values : List Word} {p p' q : Part}
    (h : CellFinished n code values p' q) (hframe : p'.acq.frameCount = p.acq.frameCount) :
    CellFinished n code values p q := ⟨h.state, h.code, h.values, hframe ▸ h.doneFrame⟩

/-- The bytes that the finishing of some cells stores to. -/
def cellsResultByte (cells : CellId → Prop) (a : Nat) : Prop := ∃ k, cells k ∧ cellResultByte k a

theorem cellsResultByte.not_takenFrame {cells : CellId → Prop} {a : Nat} (h : cellsResultByte cells a)
    (n : CellId) : ¬ (cellOffset n + 0x06 ≤ a ∧ a < cellOffset n + 0x0A) :=
  h.elim (fun _ hk => hk.2.not_takenFrame)

theorem cellsResultByte.not_answer {cells : CellId → Prop} {a : Nat} (h : cellsResultByte cells a)
    {n : CellId} (hn : ¬ cells n) : ¬ cellAnswerByte n a :=
  h.elim (fun _ hk ha => hn (ha.cell_eq hk.2.answer ▸ hk.1))

/-- A finished cell stays so while another is finished. -/
theorem CellFinished.finish_other {n k : CellId} {code : ResultCode} {values : List Word} {p q : Part}
    (h : CellFinished k code values p q) (hwf : Memory.wf q.exch.mem = true) (hne : k ≠ n)
    (code' : ResultCode) (values' : List Word) :
    CellFinished k code values p (finishCell n code' values' q) :=
  h.congr (readByte_finishCell_other k n code' values' q hwf hne)

/-- The taken cell finished at the end of a chain that finished the cells of some entries. -/
theorem answered_of_chain {n : CellId} {cells : CellId → Prop} {p q : Part}
    (h : (takeCell n p).Writes (cellsResultByte cells) q) (hwf : Memory.wf p.exch.mem = true)
    (hcount : q.orders.taken = p.orders.taken + 1#32) (code : ResultCode) (values : List Word) :
    CellFinished n code values p (finishCell n code values q) ∧
      CellTakenAt n p (finishCell n code values q) ∧
      Part.storesOnly (fun a => cellAnswerByte n a ∨ ∃ k, cells k ∧ cellAnswerByte k a) p
        (finishCell n code values q) := by
  have hwf' := (Part.Writes.take p n).wf hwf
  have hall : (takeCell n p).Writes (cellsResultByte (fun k => k = n ∨ cells k)) (finishCell n code values q) :=
    (h.mono (fun a ⟨k, hk, ha⟩ => ⟨k, .inr hk, ha⟩)).finish n code values (fun a ha => ⟨n, .inl rfl, ha⟩)
  refine ⟨(h.finishedNow hwf' n code values).of_frame rfl,
    hall.cellTakenAt hwf (fun a ha => ha.not_takenFrame n) hcount,
    (((Part.Writes.take p n).mono (fun a => .inl)).trans (hall.mono ?_)).storesOnly hwf⟩
  rintro a ⟨k, rfl | hk, ha⟩
  · exact .inl ha.answer
  · exact .inr ⟨k, hk, ha.answer⟩

/-- The taken cell set TAKEN at the end of a chain that finished the cells of some entries. -/
theorem accepted_of_chain {n : CellId} {cells : CellId → Prop} {p q r : Part}
    (h : (takeCell n p).Writes (cellsResultByte cells) q) (hwf : Memory.wf p.exch.mem = true)
    (hexch : r.exch = (setTaken n q).exch) (hacq : r.acq = q.acq)
    (hcount : r.orders.taken = p.orders.taken + 1#32) :
    readWord r.exch.mem (cellOffset n) = cellTaken ∧ CellTakenAt n p r ∧
      Part.storesOnly (fun a => cellAnswerByte n a ∨ ∃ k, cells k ∧ cellAnswerByte k a) p r := by
  have hall : (takeCell n p).Writes (cellsResultByte (fun k => k = n ∨ cells k)) r :=
    ((h.mono (fun a ⟨k, hk, ha⟩ => ⟨k, .inr hk, ha⟩)).setTaken n (fun a ha => ⟨n, .inl rfl, ha⟩)).of_exch
      hexch hacq
  refine ⟨?_, hall.cellTakenAt hwf (fun a ha => ha.not_takenFrame n) hcount,
    (((Part.Writes.take p n).mono (fun a => .inl)).trans (hall.mono ?_)).storesOnly hwf⟩
  · rw [hexch]
    exact readWord_writeWord_same _ _ _ (h.wf ((Part.Writes.take p n).wf hwf))
  · rintro a ⟨k, rfl | hk, ha⟩
    · exact .inl ha.answer
    · exact .inr ⟨k, hk, ha.answer⟩

/-- A finished cell stays so while another is set TAKEN. -/
theorem CellFinished.setTaken_other {n k : CellId} {code : ResultCode} {values : List Word} {p q r : Part}
    (h : CellFinished k code values p q) (hwf : Memory.wf q.exch.mem = true) (hne : k ≠ n)
    (hexch : r.exch = (setTaken n q).exch) : CellFinished k code values p r := by
  refine h.congr (fun a ha => ?_)
  have hn : ∀ b, b = cellOffset n ∨ b = cellOffset n + 1 → a ≠ b := by
    rintro b hb rfl
    exact hne (ha.cell_eq (by unfold cellAnswerByte; omega))
  rw [hexch]
  exact readByte_writeWord_other _ _ _ _ hwf (hn _ (.inl rfl)) (hn _ (.inr rfl))

theorem Part.storesOnly.mono {stored wider : Nat → Prop} {p q : Part} (h : Part.storesOnly stored p q)
    (hsub : ∀ a, stored a → wider a) : Part.storesOnly wider p q :=
  ⟨fun a ha => h.1 a (fun hs => ha (hsub a hs)), h.2⟩

/-! ## Attention over a chain -/

/-- From `p` to `q` no source but ORDER comes to be pending or is taken back, and the routing stands. -/
structure Part.RaisesOrderAtMost (p q : Part) : Prop where
  routing : q.attn.routing = p.attn.routing
  others : ∀ src, src ≠ .order → q.raised src = p.raised src

namespace Part.RaisesOrderAtMost

variable {p q : Part}

theorem of_attn (h : q.attn = p.attn) : p.RaisesOrderAtMost q :=
  ⟨h ▸ rfl, fun _ _ => by unfold Part.raised; rw [h]⟩

theorem trans {r : Part} (h : p.RaisesOrderAtMost q) (h' : q.RaisesOrderAtMost r) : p.RaisesOrderAtMost r :=
  ⟨h'.routing.trans h.routing, fun src hsrc => (h'.others src hsrc).trans (h.others src hsrc)⟩

theorem setOrders (h : p.RaisesOrderAtMost q) (v : OrderUnit) : p.RaisesOrderAtMost (q.setOrders v) :=
  h.trans (of_attn rfl)

theorem setCap (h : p.RaisesOrderAtMost q) (v : PerEngine Engine) : p.RaisesOrderAtMost (q.setCap v) :=
  h.trans (of_attn rfl)

theorem finish (h : p.RaisesOrderAtMost q) (n : CellId) (code : ResultCode) (values : List Word) :
    p.RaisesOrderAtMost (finishCell n code values q) :=
  h.trans ⟨rfl, fun src hsrc => by
    rw [raised_finishCell, beq_eq_false_iff_ne.2 hsrc.symm, Bool.or_false]⟩

theorem endRun (h : p.RaisesOrderAtMost q) (code : ResultCode) : p.RaisesOrderAtMost (finishRun code q) := by
  unfold finishRun
  split
  · exact h
  · exact (h.setOrders _).finish _ _ _

theorem endCapture (h : p.RaisesOrderAtMost q) (e : EngineId) (code : ResultCode) (values : List Word) :
    p.RaisesOrderAtMost (finishCapture e code values q) := by
  unfold finishCapture
  split
  · exact h
  · exact (h.setOrders _).finish _ _ _

theorem endLinkTest (h : p.RaisesOrderAtMost q) (m : Motor) (code : ResultCode) (values : List Word) :
    p.RaisesOrderAtMost (finishLinkTest m code values q) := by
  unfold finishLinkTest
  split
  · exact h
  · exact (h.setOrders _).finish _ _ _

/-- A chain that ends with a finished cell raises ORDER, whatever of it was raised before. -/
theorem raisesOnly_finish (h : p.RaisesOrderAtMost q) (n : CellId) (code : ResultCode) (values : List Word) :
    Part.raisesOnly [.order] p (finishCell n code values q) := by
  refine ⟨h.routing, fun src => ?_⟩
  rw [raised_finishCell]
  by_cases hsrc : src = .order
  · subst hsrc
    simp
  · rw [h.others src hsrc]
    cases src <;> first | exact absurd rfl hsrc | rfl

end Part.RaisesOrderAtMost

theorem Part.raisesOnly_append {srcs srcs' : List Source} {p q r : Part} (h : Part.raisesOnly srcs p q)
    (h' : Part.raisesOnly srcs' q r) : Part.raisesOnly (srcs ++ srcs') p r :=
  ⟨h'.1.trans h.1, fun src => by rw [h'.2, h.2, List.contains_append, Bool.or_assoc]⟩

/-! ## Entries emptied -/

theorem finishCapture_orders (e : EngineId) (code : ResultCode) (values : List Word) (p : Part) :
    (finishCapture e code values p).orders =
      { p.orders with capture := p.orders.capture.set e none } := by
  unfold finishCapture
  split
  · next h =>
    have hset : p.orders.capture.set e none = p.orders.capture := by
      rw [← h]
      cases e <;> rfl
    rw [hset]
  · rfl

theorem finishLinkTest_orders (m : Motor) (code : ResultCode) (values : List Word) (p : Part) :
    (finishLinkTest m code values p).orders =
      { p.orders with linkTest := p.orders.linkTest.set m none } := by
  unfold finishLinkTest
  split
  · next h =>
    have hset : p.orders.linkTest.set m none = p.orders.linkTest := by
      rw [← h]
      cases m <;> rfl
    rw [hset]
  · rfl

/-! ## LINK_RESET -/

theorem linkResetHandOver_links (m : Motor) (p : Part) :
    (linkResetHandOver m p).links = p.links.set m { p.links.get m with
      state := .syncing, syncRun := 0, lossCount := 0, window := none, testPending := false } := by
  unfold linkResetHandOver
  dsimp only
  split <;> rfl

/-- LINK is raised from UP and from LOST only (R93). -/
theorem linkResetHandOver_eq (m : Motor) (p : Part) :
    linkResetHandOver m p =
      let q := p.setLink m { p.links.get m with
        state := .syncing, syncRun := 0, lossCount := 0, window := none, testPending := false }
      if (p.links.get m).state = .up ∨ (p.links.get m).state = .lost then raiseSource .link q else q := by
  unfold linkResetHandOver
  dsimp only
  split <;> next h => simp [h]

section LinkReset

variable (n : CellId) (m : Motor) (p : Part)

theorem linkResetHandOver_exch : (linkResetHandOver m p).exch = p.exch := by
  rw [linkResetHandOver_eq]
  dsimp only
  split <;> rfl

theorem linkResetHandOver_acq : (linkResetHandOver m p).acq = p.acq := by
  rw [linkResetHandOver_eq]
  dsimp only
  split <;> rfl

theorem linkResetHandOver_orders : (linkResetHandOver m p).orders = p.orders := by
  rw [linkResetHandOver_eq]
  dsimp only
  split <;> rfl

theorem linkResetHandOver_keeps : Part.keeps [.attn, .links] p (linkResetHandOver m p) := by
  rw [linkResetHandOver_eq]
  have h := (Part.keeps.refl [.attn, .links] p).setLinks (p.links.set m { p.links.get m with
    state := .syncing, syncRun := 0, lossCount := 0, window := none, testPending := false })
  dsimp only
  split
  · exact h.raise .link
  · exact h

theorem linkResetHandOver_raises :
    Part.raisesOnly (if (p.links.get m).state = .up ∨ (p.links.get m).state = .lost then [.link] else []) p
      (linkResetHandOver m p) := by
  rw [linkResetHandOver_eq]
  dsimp only
  split
  · exact raisesOnly_raiseSource .link _
  · exact ⟨rfl, fun src => (Bool.or_false _).symm⟩

end LinkReset

/-- Settles O14: the hand-over, the LINK_TEST entry of that link, then the cell. -/
theorem linkResetOrder : Obligations.LinkResetOrder := by
  intro n s rest ha hwf
  refine ⟨orderLinkReset n s.part, occur_order .linkReset n s rest ha, ?_⟩
  have harg := cellArg_takeCell n n 0 s.part hwf (by decide)
  split
  · next hm =>
    have hq : orderLinkReset n s.part = refuse n .badArgument (takeCell n s.part) := by
      simp only [orderLinkReset, harg, hm]
    exact hq ▸ orderRefused_of n .badArgument [] s.part hwf
  next m hm =>
  split
  · next hbusy =>
    have hq : orderLinkReset n s.part = refuse n .notIdle (takeCell n s.part) := by
      simp only [orderLinkReset, harg, hm]
      exact if_pos hbusy
    exact hq ▸ orderRefused_of n .notIdle [] s.part hwf
  next hbusy =>
  intro old
  obtain ⟨handed, hhanded⟩ : ∃ q, q = linkResetHandOver m (takeCell n s.part) := ⟨_, rfl⟩
  have hq : orderLinkReset n s.part = finishCell n .ok [] (finishLinkTest m .cancelled [3#16] handed) := by
    simp only [orderLinkReset, harg, hm, hhanded]
    exact if_neg hbusy
  have horders : handed.orders = { s.part.orders with taken := s.part.orders.taken + 1#32 } :=
    hhanded ▸ linkResetHandOver_orders m _
  have hlinks : handed.links = _ := hhanded ▸ linkResetHandOver_links m _
  have hraises : Part.raisesOnly (if (s.part.links.get m).state = .up ∨ (s.part.links.get m).state = .lost then
      [.link] else []) s.part handed := hhanded ▸ linkResetHandOver_raises m (takeCell n s.part)
  have hkeeps : Part.keeps _ _ handed := hhanded ▸ linkResetHandOver_keeps m (takeCell n s.part)
  have hhand : ∀ stored, (takeCell n s.part).Writes stored handed := fun stored =>
    (Part.Writes.refl stored _).of_exch (hhanded ▸ linkResetHandOver_exch m _)
      (hhanded ▸ linkResetHandOver_acq m _)
  have hwf' := (Part.Writes.take s.part n).wf hwf
  have hchain : (takeCell n s.part).Writes
      (cellsResultByte (fun k => s.part.orders.linkTest.get m = some k))
      (finishLinkTest m .cancelled [3#16] handed) :=
    (hhand _).endLinkTest m _ _ (fun k hk a ha => ⟨k, by rw [horders] at hk; exact hk, ha⟩)
  obtain ⟨hfin, htaken, hstores⟩ := answered_of_chain hchain hwf
    (by rw [finishLinkTest_orders, horders]) .ok []
  rw [hq]
  refine ⟨hfin, htaken, fun k hk hne => ?_, ?_, ?_, ?_, hstores, ?_⟩
  · have hentry : handed.orders.linkTest.get m = some k := by rw [horders]; exact hk
    exact (((hhand (fun _ => True)).endLinkTest_finished hwf' m k hentry).of_frame (p := s.part) rfl).finish_other
      (hchain.wf hwf') hne _ _
  · rw [finishCell_links, finishLinkTest_links, hlinks]
    rfl
  · rw [finishCell_orders, finishLinkTest_orders, horders]
  · have hall := Part.raisesOnly_append hraises
      (((Part.RaisesOrderAtMost.of_attn (p := handed) rfl).endLinkTest m .cancelled [3#16]).raisesOnly_finish n
        .ok [])
    have hlist : (if old.state = .up ∨ old.state = .lost then [Source.link, .order] else [.order]) =
        (if old.state = .up ∨ old.state = .lost then [Source.link] else []) ++ [.order] := by
      split <;> rfl
    rw [hlist]
    exact hall
  · exact (((((Part.keeps.refl _ _).take n).trans (hkeeps.mono (by decide))).endLinkTest m _ _).finish n _ _)

end Sys2Proof.Machine
end

section
/-! CAPTURE_CANCEL: the engine, its cell, and the capture that waits on it (R184). -/

namespace Sys2Proof.Machine

section Cancel

variable (e : EngineId) (p : Part)

/-- The engine idle and its cell finished: steps 1 and 2 of R184. -/
def engineEnded (e : EngineId) (p : Part) : Part :=
  finishCapture e .cancelled (captureResults (p.cap.get e))
    (p.setCap (p.cap.set e (p.cap.get e).cancelled))

/-- The engine that waited idle too, and its cell finished: step 3 of R184. -/
def waitingEnded (e : EngineId) (p : Part) : Part :=
  finishCapture e.other .abortedUpstream [] ((engineEnded e p).setCap
    ((engineEnded e p).cap.set e.other { (p.cap.get e.other).cancelled with written := 0 }))

theorem engineEnded_cap : (engineEnded e p).cap = p.cap.set e (p.cap.get e).cancelled :=
  finishCapture_cap e _ _ _

theorem engineEnded_orders :
    (engineEnded e p).orders = { p.orders with capture := p.orders.capture.set e none } :=
  finishCapture_orders e _ _ _

theorem waitingEnded_cap :
    (waitingEnded e p).cap = (p.cap.set e (p.cap.get e).cancelled).set e.other
      { (p.cap.get e.other).cancelled with written := 0 } :=
  (finishCapture_cap _ _ _ _).trans (by rw [Part.setCap_cap, engineEnded_cap])

theorem waitingEnded_orders :
    (waitingEnded e p).orders =
      { p.orders with capture := (p.orders.capture.set e none).set e.other none } :=
  (finishCapture_orders _ _ _ _).trans (by rw [Part.setCap_orders, engineEnded_orders])

theorem cancelCapture_eq :
    cancelCapture e p = if (p.cap.get e.other).waits then waitingEnded e p else engineEnded e p := by
  have hother : (engineEnded e p).cap.get e.other = p.cap.get e.other := by
    rw [engineEnded_cap, PerEngine.get_set_other]
  show (if ((engineEnded e p).cap.get e.other).waits then
    finishCapture e.other .abortedUpstream [] ((engineEnded e p).setCap ((engineEnded e p).cap.set e.other
      { ((engineEnded e p).cap.get e.other).cancelled with written := 0 })) else engineEnded e p) = _
  rw [hother]
  rfl

/-- The cells of the captures in flight. -/
def captureCell (p : Part) (k : CellId) : Prop := ∃ i, p.orders.capture.get i = some k

theorem engineEnded_writes : p.Writes (cellsResultByte (captureCell p)) (engineEnded e p) :=
  ((Part.Writes.refl _ p).setCap _).endCapture e _ _ (fun k hk _ ha => ⟨k, ⟨e, hk⟩, ha⟩)

/-- What step 3 stores beyond steps 1 and 2: the cell of the capture that waited. -/
theorem waitingEnded_writes_after :
    (engineEnded e p).Writes (cellsResultByte (fun k => p.orders.capture.get e.other = some k))
      (waitingEnded e p) := by
  refine ((Part.Writes.refl _ _).setCap _).endCapture e.other _ _ (fun k hk a ha => ⟨k, ?_, ha⟩)
  rwa [Part.setCap_orders, engineEnded_orders, PerEngine.get_set_other] at hk

theorem cancelCapture_writes : p.Writes (cellsResultByte (captureCell p)) (cancelCapture e p) := by
  rw [cancelCapture_eq]
  split
  · exact (engineEnded_writes e p).trans ((waitingEnded_writes_after e p).mono
      (fun a ⟨k, hk, ha⟩ => ⟨k, ⟨e.other, hk⟩, ha⟩))
  · exact engineEnded_writes e p

theorem cancelCapture_raises : p.RaisesOrderAtMost (cancelCapture e p) := by
  have hended : p.RaisesOrderAtMost (engineEnded e p) :=
    ((Part.RaisesOrderAtMost.of_attn (p := p) rfl).setCap _).endCapture e _ _
  rw [cancelCapture_eq]
  split
  · exact (hended.setCap _).endCapture e.other _ _
  · exact hended

theorem cancelCapture_keeps : Part.keeps [.exch, .attn, .orders, .cap] p (cancelCapture e p) := by
  have hended : Part.keeps [.exch, .attn, .orders, .cap] p (engineEnded e p) :=
    ((Part.keeps.refl _ p).setCap _).endCapture e _ _
  rw [cancelCapture_eq]
  split
  · exact (hended.setCap _).endCapture e.other _ _
  · exact hended

theorem cancelCapture_cap :
    (cancelCapture e p).cap.get e = (p.cap.get e).cancelled ∧
      (cancelCapture e p).cap.get e.other =
        if (p.cap.get e.other).waits then { (p.cap.get e.other).cancelled with written := 0 }
        else p.cap.get e.other := by
  rw [cancelCapture_eq]
  split
  · rw [waitingEnded_cap]
    cases e <;> exact ⟨rfl, rfl⟩
  · rw [engineEnded_cap]
    cases e <;> exact ⟨rfl, rfl⟩

theorem cancelCapture_orders :
    (cancelCapture e p).orders = { p.orders with
      capture := if (p.cap.get e.other).waits then (p.orders.capture.set e none).set e.other none
        else p.orders.capture.set e none } := by
  rw [cancelCapture_eq]
  split
  · exact waitingEnded_orders e p
  · exact engineEnded_orders e p

/-- The entries after a cancel: the engine's own is empty, the other's where its capture waited. -/
theorem cancelled_entries (x : PerEngine (Option CellId)) (waits : Bool) :
    (if waits then (x.set e none).set e.other none else x.set e none).get e = none ∧
      (if waits then (x.set e none).set e.other none else x.set e none).get e.other =
        if waits then none else x.get e.other := by
  cases e <;> cases waits <;> exact ⟨rfl, rfl⟩

variable (hwf : Memory.wf p.exch.mem = true)

include hwf

/-- The cell of the engine's own capture, where no waiting capture holds the same one. -/
theorem cancelCapture_finished (k : CellId) (hk : p.orders.capture.get e = some k)
    (hother : (p.cap.get e.other).waits = true → p.orders.capture.get e.other ≠ some k) :
    CellFinished k .cancelled (captureResults (p.cap.get e)) p (cancelCapture e p) := by
  have hended : CellFinished k .cancelled (captureResults (p.cap.get e)) p (engineEnded e p) :=
    ((Part.Writes.refl (fun _ => True) p).setCap _).endCapture_finished hwf e k hk
  rw [cancelCapture_eq]
  split
  · next hwaits =>
    exact (waitingEnded_writes_after e p).cellFinished ((engineEnded_writes e p).wf hwf) hended
      (fun a ha => ha.not_answer (hother hwaits))
  · exact hended

/-- The cell of the capture that waited. -/
theorem cancelCapture_upstream (hwaits : (p.cap.get e.other).waits = true) (k : CellId)
    (hk : p.orders.capture.get e.other = some k) :
    CellFinished k .abortedUpstream [] p (cancelCapture e p) := by
  rw [cancelCapture_eq, if_pos hwaits]
  refine ((engineEnded_writes e p).setCap _).endCapture_finished hwf e.other k ?_
  rw [Part.setCap_orders, engineEnded_orders, PerEngine.get_set_other]
  exact hk

end Cancel

/-- Settles O11, by the steps of R184. -/
theorem captureCancelOrder : Obligations.CaptureCancelOrder := by
  intro n s rest ha hwf
  refine ⟨orderCaptureCancel n s.part, occur_order .captureCancel n s rest ha, fun e he => ⟨fun hidle => ?_,
    fun hbusy => ?_⟩, fun hnone => ?_⟩
  all_goals have harg := cellArg_takeCell n n 0 s.part hwf (by decide)
  · have hq : orderCaptureCancel n s.part = finishCell n .already [] (takeCell n s.part) := by
      simp only [orderCaptureCancel, harg, he, takeCell_cap, hidle, ↓reduceIte]
    exact hq ▸ orderAlready_of n .already [] s.part hwf
  · intro old other follows
    have hq : orderCaptureCancel n s.part =
        finishCell n .ok [wordOfNat old.written] (cancelCapture e (takeCell n s.part)) := by
      simp only [orderCaptureCancel, harg, he]
      exact if_neg hbusy
    have hwf' := (Part.Writes.take s.part n).wf hwf
    have hwrites := cancelCapture_writes e (takeCell n s.part)
    have horders := cancelCapture_orders e (takeCell n s.part)
    obtain ⟨hcap, hcapOther⟩ := cancelCapture_cap e (takeCell n s.part)
    obtain ⟨hfin, htaken, hstores⟩ := answered_of_chain hwrites hwf (by rw [horders]; rfl) .ok
      [wordOfNat old.written]
    have hwfEnd := hwrites.wf hwf'
    rw [hq]
    refine ⟨hfin, htaken, ?_, ?_, fun k hk hne hother => ?_, fun k hfollows hk hne => ?_, ?_, ?_, ?_,
      (cancelCapture_raises e _).raisesOnly_finish n .ok _, ?_, ?_⟩
    · rw [finishCell_cap, hcap]
      rfl
    · rw [finishCell_cap, hcapOther]
      rfl
    · exact ((cancelCapture_finished e (takeCell n s.part) hwf' k hk hother).of_frame (p := s.part) rfl).finish_other
        hwfEnd hne _ _
    · exact ((cancelCapture_upstream e (takeCell n s.part) hwf' hfollows k hk).of_frame (p := s.part) rfl).finish_other
        hwfEnd hne _ _
    · rw [finishCell_orders, horders]
      exact (cancelled_entries e _ _).1
    · rw [finishCell_orders, horders]
      exact (cancelled_entries e _ _).2
    · rw [finishCell_orders, horders]
      rfl
    · exact hstores.mono (fun a => Or.imp_right (fun ⟨k, ⟨i, hk⟩, ha⟩ => ⟨i, k, hk, ha⟩))
    · exact (((Part.keeps.refl _ _).take n).trans (cancelCapture_keeps e _)).finish n _ _
  · have hq : orderCaptureCancel n s.part = refuse n .badArgument (takeCell n s.part) := by
      simp only [orderCaptureCancel, harg, hnone]
    exact hq ▸ orderRefused_of n .badArgument [] s.part hwf

end Sys2Proof.Machine
end

section
/-! STOP: ALREADY, or the stop is handed over and a RUN in flight is superseded (R19, R106). -/

namespace Sys2Proof.Machine

/-- The cell of the RUN in flight. -/
def runCell (p : Part) (k : CellId) : Prop := ∃ r, p.orders.run = some r ∧ r.cell = k

theorem runCell_answer {p : Part} {a : Nat} (h : ∃ k, runCell p k ∧ cellAnswerByte k a) :
    ∃ r, p.orders.run = some r ∧ cellAnswerByte r.cell a := by
  obtain ⟨_, ⟨r, hr, rfl⟩, ha⟩ := h
  exact ⟨r, hr, ha⟩

theorem runCell_answer_of {p : Part} {a : Nat} {r : RunEntry} (hr : p.orders.run = some r)
    (h : ∃ r, p.orders.run = some r ∧ cellAnswerByte r.cell a) : cellAnswerByte r.cell a := by
  obtain ⟨x, hx, ha⟩ := h
  obtain rfl : r = x := Option.some.inj (hr.symm.trans hx)
  exact ha

section Superseded

variable (n : CellId) (p : Part)

/-- A cell is taken and a RUN in flight is superseded (R19, R20). -/
def supersededRun (n : CellId) (p : Part) : Part := finishRun .superseded (takeCell n p)

theorem supersededRun_orders :
    (supersededRun n p).orders = { p.orders with taken := p.orders.taken + 1#32, run := none } :=
  finishRun_orders _ _

theorem supersededRun_seq : (supersededRun n p).seq = p.seq := finishRun_seq _ _

theorem supersededRun_writes :
    (takeCell n p).Writes (cellsResultByte (runCell p)) (supersededRun n p) :=
  (Part.Writes.refl _ _).endRun _ (fun r hr _ ha => ⟨r.cell, ⟨r, hr, rfl⟩, ha⟩)

theorem supersededRun_keeps : Part.keeps [.exch, .attn, .orders] p (supersededRun n p) :=
  ((Part.keeps.refl _ p).take n).endRun _

theorem supersededRun_raisesAtMost : p.RaisesOrderAtMost (supersededRun n p) :=
  (Part.RaisesOrderAtMost.of_attn (p := p) (q := takeCell n p) rfl).endRun _

theorem supersededRun_raises :
    Part.raisesOnly (if p.orders.run.isSome then [.order] else []) p (supersededRun n p) := by
  refine ⟨finishRun_routing _ _, fun src => ?_⟩
  rw [supersededRun, raised_finishRun]
  show (p.raised src || _) = _
  rw [takeCell_orders]
  cases p.orders.run with
  | none => rfl
  | some r => cases src <;> rfl

theorem supersededRun_finished (hwf : Memory.wf p.exch.mem = true) (r : RunEntry)
    (hr : p.orders.run = some r) : CellFinished r.cell .superseded [] p (supersededRun n p) :=
  ((Part.Writes.refl (fun _ => True) (takeCell n p)).endRun_finished ((Part.Writes.take p n).wf hwf) r
    hr).of_frame rfl

theorem supersededRun_wf (hwf : Memory.wf p.exch.mem = true) :
    Memory.wf (supersededRun n p).exch.mem = true :=
  (supersededRun_writes n p).wf ((Part.Writes.take p n).wf hwf)

end Superseded

/-! ## The cases of STOP -/

/-- The cell TAKEN and attached to the STOP entry. -/
def attachStop (n : CellId) (p : Part) : Part :=
  (setTaken n p).setOrders { p.orders with stop := some n }

section Cases

variable (n : CellId) (p : Part)

theorem orderStop_already (h : p.orders.stop.isSome ∨ (p.orders.run = none ∧
    (p.seq.group = .idle ∨ p.seq.group = .stopping ∨ p.seq.group = .tripped))) :
    orderStop n p = finishCell n .already [] (takeCell n p) :=
  if_pos (h.imp_right (fun h => ⟨Option.isNone_iff_eq_none.2 h.1, h.2⟩))

theorem orderStop_handedOver (hstop : p.orders.stop = none)
    (h : p.orders.run ≠ none ∨ (p.seq.group = .starting ∨ p.seq.group = .running)) :
    orderStop n p =
      if (stopHandOver (supersededRun n p)).2 then
        finishStop .ok (attachStop n (stopHandOver (supersededRun n p)).1)
      else attachStop n (stopHandOver (supersededRun n p)).1 := by
  refine if_neg ?_
  rintro (hs | ⟨hr, hg⟩)
  · rw [takeCell_orders, hstop] at hs
    cases hs
  · rcases h with h | h | h
    · exact h (Option.isNone_iff_eq_none.1 hr)
    all_goals
      rw [takeCell_seq, h] at hg
      simp at hg

/-- The stop of a group that starts or runs (R106). -/
def stopBegun (p : Part) : Part :=
  p.setSeq { p.seq with group := .stopping, allowance := none, motor := p.seq.motor.map MotorSeq.orderedStop }

/-- The stop of a start from IDLE (R106). -/
def startCancelled (p : Part) : Part := p.setSeq { p.seq with motor := p.seq.motor.map MotorSeq.startStopped }

theorem stopHandOver_begun (h : p.seq.group = .starting ∨ p.seq.group = .running) :
    stopHandOver p = (stopBegun p, false) := by
  unfold stopHandOver
  rcases h with h | h <;> simp only [h] <;> rfl

theorem stopHandOver_idle (h : p.seq.group = .idle) : stopHandOver p = (startCancelled p, true) := by
  simp only [stopHandOver, startCancelled, h]

theorem stopHandOver_over (h : p.seq.group = .stopping ∨ p.seq.group = .tripped) :
    stopHandOver p = (p, false) := by
  unfold stopHandOver
  rcases h with h | h <;> simp only [h]

theorem orderStop_begun (hstop : p.orders.stop = none)
    (h : p.seq.group = .starting ∨ p.seq.group = .running) :
    orderStop n p = attachStop n (stopBegun (supersededRun n p)) := by
  rw [orderStop_handedOver n p hstop (.inr h),
    stopHandOver_begun _ (by rwa [supersededRun_seq])]
  rfl

theorem orderStop_over (hstop : p.orders.stop = none) (hrun : p.orders.run ≠ none)
    (h : p.seq.group = .stopping ∨ p.seq.group = .tripped) :
    orderStop n p = attachStop n (supersededRun n p) := by
  rw [orderStop_handedOver n p hstop (.inl hrun),
    stopHandOver_over _ (by rwa [supersededRun_seq])]
  rfl

/-- A STOP complete at its hand-over, its entry emptied again. -/
def stopAtOnce (n : CellId) (p : Part) : Part :=
  (attachStop n (startCancelled (supersededRun n p))).setOrders { (supersededRun n p).orders with stop := none }

theorem orderStop_idle (hstop : p.orders.stop = none) (hrun : p.orders.run ≠ none)
    (h : p.seq.group = .idle) :
    orderStop n p = finishCell n .ok [] (stopAtOnce n p) := by
  rw [orderStop_handedOver n p hstop (.inl hrun),
    stopHandOver_idle _ (by rwa [supersededRun_seq])]
  rfl

end Cases

/-! What the two hand-overs make of a motor, state by state (R106). -/

theorem stopBegun_motor (n : CellId) (p : Part) (m : Motor) :
    (stopBegun (supersededRun n p)).seq.motor.get m = (p.seq.motor.get m).orderedStop := by
  rw [stopBegun, Part.setSeq_seq, supersededRun_seq, PerMotor.get_map]

theorem startCancelled_motor (n : CellId) (p : Part) (m : Motor) :
    (startCancelled (supersededRun n p)).seq.motor.get m = (p.seq.motor.get m).startStopped := by
  rw [startCancelled, Part.setSeq_seq, supersededRun_seq, PerMotor.get_map]

/-- Settles O5, by the state of the group. -/
theorem stopOrder : Obligations.StopOrder := by
  intro n s rest ha hwf
  refine ⟨orderStop n s.part, occur_order .stop n s rest ha, fun h => ?_, fun hstop hgroup => ?_,
    fun r hstop hr hne hgroup => ?_, fun hstop hgroup r hr hne => ?_⟩
  · rw [orderStop_already n s.part h]
    exact orderAlready_of n .already [] s.part hwf
  all_goals
    have hwf1 := supersededRun_wf n s.part hwf
    have hwrites := supersededRun_writes n s.part
    have horders := supersededRun_orders n s.part
    have hkeeps := supersededRun_keeps n s.part
    have hseq := supersededRun_seq n s.part
  · rw [orderStop_begun n s.part hstop hgroup]
    obtain ⟨hword, htaken, hstores⟩ := accepted_of_chain hwrites hwf
      (r := attachStop n (stopBegun (supersededRun n s.part))) rfl rfl (by
        show (supersededRun n s.part).orders.taken = _
        rw [horders])
    refine ⟨fun r hr hne => ?_, hword, htaken, ?_, fun m => ?_, ?_, ?_, supersededRun_raises n s.part, ?_⟩
    · exact (supersededRun_finished n s.part hwf r hr).setTaken_other hwf1 hne rfl
    · show (stopBegun (supersededRun n s.part)).seq = _
      rw [stopBegun, Part.setSeq_seq, hseq]
      rfl
    · refine (stopBegun_motor n s.part m).trans ?_
      unfold Part.motorState
      rcases s.part.seq.motor.get m with ⟨state, _⟩
      cases state <;> rfl
    · show { (supersededRun n s.part).orders with stop := some n } = _
      rw [horders]
    · exact hstores.mono (fun a => Or.imp_right runCell_answer)
    · exact (((hkeeps.mono (by decide)).setSeq _).taken n).setOrders _
  · have hrun : s.part.orders.run ≠ none := by rw [hr]; exact Option.some_ne_none r
    rw [orderStop_over n s.part hstop hrun hgroup]
    obtain ⟨hword, htaken, hstores⟩ := accepted_of_chain hwrites hwf
      (r := attachStop n (supersededRun n s.part)) rfl rfl (by
        show (supersededRun n s.part).orders.taken = _
        rw [horders])
    have hraises := supersededRun_raises n s.part
    rw [hr] at hraises
    refine ⟨(supersededRun_finished n s.part hwf r hr).setTaken_other hwf1 hne rfl, hword, htaken, ?_, ?_,
      hraises, (hkeeps.taken n).setOrders _⟩
    · show { (supersededRun n s.part).orders with stop := some n } = _
      rw [horders]
    · exact hstores.mono (fun a => Or.imp_right (fun h => runCell_answer_of hr (runCell_answer h)))
  · have hrun : s.part.orders.run ≠ none := by rw [hr]; exact Option.some_ne_none r
    rw [orderStop_idle n s.part hstop hrun hgroup]
    have hchain : (takeCell n s.part).Writes (cellsResultByte (fun k => k = n ∨ runCell s.part k))
        (stopAtOnce n s.part) :=
      ((((hwrites.mono (fun a ⟨k, hk, ha⟩ => ⟨k, .inr hk, ha⟩)).setSeq _).setTaken n
        (fun a ha => ⟨n, .inl rfl, ha⟩)).setOrders _).setOrders _
    have hdone : (stopAtOnce n s.part).orders = { s.part.orders with
        taken := s.part.orders.taken + 1#32, run := none, stop := none } := by
      rw [stopAtOnce, Part.setOrders_orders, horders]
    have hdoneSeq : (stopAtOnce n s.part).seq =
        { s.part.seq with motor := s.part.seq.motor.map MotorSeq.startStopped } := by
      show (startCancelled (supersededRun n s.part)).seq = _
      rw [startCancelled, Part.setSeq_seq, hseq]
    have hkept : Part.keeps [.exch, .attn, .orders, .seq] s.part (stopAtOnce n s.part) :=
      ((((hkeeps.mono (by decide)).setSeq _).taken n).setOrders _).setOrders _
    have hraises : s.part.RaisesOrderAtMost (stopAtOnce n s.part) :=
      (supersededRun_raisesAtMost n s.part).trans (.of_attn rfl)
    have hrunCell : CellFinished r.cell .superseded [] s.part (stopAtOnce n s.part) :=
      (supersededRun_finished n s.part hwf r hr).setTaken_other hwf1 hne rfl
    obtain ⟨hfin, htaken, hstores⟩ := answered_of_chain hchain hwf (by rw [hdone]) .ok []
    refine ⟨?_, hfin, htaken, ?_, fun m => ?_, ?_, hstores.mono (fun a => ?_), ?_, ?_⟩
    · exact hrunCell.finish_other (hchain.wf ((Part.Writes.take s.part n).wf hwf)) hne _ _
    · rw [finishCell_seq, hdoneSeq]
    · refine (startCancelled_motor n s.part m).trans ?_
      unfold Part.motorState
      rcases s.part.seq.motor.get m with ⟨state, _⟩
      cases state <;> rfl
    · rw [finishCell_orders, hdone]
    · rintro (h | ⟨k, rfl | hk, h⟩)
      · exact .inl h
      · exact .inl h
      · exact .inr (runCell_answer_of hr (runCell_answer ⟨k, hk, h⟩))
    · exact hraises.raisesOnly_finish n .ok []
    · exact hkept.finish n _ _

end Sys2Proof.Machine
end

section
/-! HALT: refused, latched by a trip event, raised in place, or ALREADY (R20, R158, R160). -/

namespace Sys2Proof.Machine

/-! ## A trip event seen from before its cell was taken

The record writer looks at neither the order cells nor the entries, so what it makes of a trip is the same for a
part whose cells and entries alone were touched before. -/

/-- The record writer finds the same in `p'` as in `p`. -/
structure Part.SameForRecord (p p' : Part) : Prop where
  keeps : Part.keeps [.exch, .attn, .orders] p p'
  settings : p'.settings = p.settings
  applyCount : p'.orders.applyCount = p.orders.applyCount
  record : p'.raised .record = p.raised .record
  slots : ∀ a, Config.slotBase ≤ a → readByte p'.exch.mem a = readByte p.exch.mem a

section SameForRecord

variable {c : Cause} {cls : TripClass} {p p' q q' : Part}

theorem recordFields_congr (h : p.SameForRecord p') : recordFields c cls p' = recordFields c cls p := by
  have htrip : p'.trip = p.trip := h.keeps .trip (by decide)
  have hseq : p'.seq = p.seq := h.keeps .seq (by decide)
  have hacq : p'.acq = p.acq := h.keeps .acq (by decide)
  simp only [recordFields, htrip, hseq, hacq, h.settings, h.applyCount]

theorem recordMotorFields_congr (h : p.SameForRecord p') (m : Motor) :
    recordMotorFields p' m = recordMotorFields p m := by
  have hseq : p'.seq = p.seq := h.keeps .seq (by decide)
  have hacq : p'.acq = p.acq := h.keeps .acq (by decide)
  have hctl : p'.ctl = p.ctl := h.keeps .ctl (by decide)
  have hallot : p'.allot = p.allot := h.keeps .allot (by decide)
  have hlinks : p'.links = p.links := h.keeps .links (by decide)
  simp only [recordMotorFields, Part.motorState, hseq, hacq, hctl, hallot, hlinks]

theorem recordPreTrip_congr (h : p.SameForRecord p') : recordPreTrip p' = recordPreTrip p := by
  have htrip : p'.trip = p.trip := h.keeps .trip (by decide)
  simp only [recordPreTrip, htrip, h.settings]

theorem conditionBits_congr (h : p.SameForRecord p') : conditionBits p' = conditionBits p := by
  have hacq : p'.acq = p.acq := h.keeps .acq (by decide)
  have hallot : p'.allot = p.allot := h.keeps .allot (by decide)
  have hlinks : p'.links = p.links := h.keeps .links (by decide)
  have hvib : p'.vib = p.vib := h.keeps .vib (by decide)
  have hpins : p'.pins = p.pins := h.keeps .pins (by decide)
  have hcond : conditionPresent p' = conditionPresent p := by
    funext x
    cases x <;>
      simp only [conditionPresent, Part.markOf, hacq, hallot, hlinks, hvib, hpins, h.settings]
  rw [conditionBits, hcond, conditionBits]

theorem RecordOpened.of_before {x : SlotId} (h : RecordOpened x c cls p' q) (hs : p.SameForRecord p') :
    RecordOpened x c cls p q := by
  have hacq : p'.acq = p.acq := hs.keeps .acq (by decide)
  have htrip : p'.trip = p.trip := hs.keeps .trip (by decide)
  have hvib : p'.vib = p.vib := hs.keeps .vib (by decide)
  have hpre := recordPreTrip_congr hs
  have hgroup : ∀ g, groupLevel p' g = groupLevel p g := fun g => by simp only [groupLevel, hvib]
  exact
    { state := hs.settings ▸ h.state
      filling := by rw [h.filling, hpre, hs.settings]
      raised := by rw [h.raised, hs.record, hs.settings]
      fields := recordFields_congr hs ▸ h.fields
      frame := hacq ▸ h.frame
      latched := h.latched
      conditions := conditionBits_congr hs ▸ h.conditions
      groups := fun g => by rw [h.groups g, hvib, hgroup]
      motorA := recordMotorFields_congr hs .a ▸ h.motorA
      motorB := recordMotorFields_congr hs .b ▸ h.motorB
      preCount := hpre ▸ h.preCount
      pre := hpre ▸ h.pre
      fastCount := htrip ▸ h.fastCount
      fast := htrip ▸ h.fast
      stores := fun hfast hlen a ha hout =>
        (h.stores (htrip ▸ hfast) (hpre ▸ hlen) a ha (hpre ▸ hout)).trans (hs.slots a ha) }

theorem FollowOnNoted.of_before {f : Filling} (h : FollowOnNoted f c cls p' q) (hs : p.SameForRecord p') :
    FollowOnNoted f c cls p q where
  filling := h.filling
  listed hf := by
    obtain ⟨hentry, hcount, hother⟩ := h.listed hf
    exact ⟨hentry, hcount, fun a ha h0 h1 hout => (hother a ha h0 h1 hout).trans (hs.slots a ha)⟩
  more hf := by
    obtain ⟨hcount, hother⟩ := h.more hf
    exact ⟨hcount, fun a ha h0 h1 => (hother a ha h0 h1).trans (hs.slots a ha)⟩
  raised := h.raised.trans hs.record

/-- A trip recorded from `p'` is recorded from `p`, where the record writer finds the same. -/
theorem TripRecorded.of_before (h : TripRecorded c cls p' q) (hs : p.SameForRecord p') :
    TripRecorded c cls p q := by
  have htrip : p'.trip = p.trip := hs.keeps .trip (by decide)
  have hstate : ∀ x, slotState p' x = slotState p x := slotState_congr p p' hs.slots
  constructor
  · exact fun f hf => (h.followOn f (htrip ▸ hf)).of_before hs
  · exact fun hf x hx hlow => (h.opened (htrip ▸ hf) x ((hstate x).trans hx)
      (fun y hy hfree => hlow y hy ((hstate y).symm.trans hfree))).of_before hs
  · intro hf hx
    obtain ⟨hfill, hrec, hun, hbytes⟩ := h.unrecorded (htrip ▸ hf)
      (fun x hfree => hx x ((hstate x).symm.trans hfree))
    exact ⟨hfill, hrec.trans hs.record, htrip ▸ hun, fun a ha => (hbytes a ha).trans (hs.slots a ha)⟩
  · intro hcase
    rw [← htrip]
    exact h.recorded (hcase.imp (htrip ▸ ·) (fun ⟨x, hx⟩ => ⟨x, (hstate x).trans hx⟩))
  · rw [← htrip]
    exact h.rings

/-- The slots, the trip unit and RECORD stand from `q` to `q'`. -/
structure Part.RecordsKept (q q' : Part) : Prop where
  trip : q'.trip = q.trip
  record : q'.raised .record = q.raised .record
  slots : ∀ a, Config.slotBase ≤ a → readByte q'.exch.mem a = readByte q.exch.mem a

namespace Part.RecordsKept

/-- Words of a slot read the same. -/
theorem words (h : q.RecordsKept q') (x : SlotId) (off k : Nat) :
    readWords q'.exch.mem (slotOffset x + off) k = readWords q.exch.mem (slotOffset x + off) k :=
  have hlow : Config.slotBase ≤ slotOffset x := slotOffset_low x
  readWords_congr _ _ _ _ (fun b hb _ => h.slots b (hlow.trans ((Nat.le_add_right _ off).trans hb)))

theorem word (h : q.RecordsKept q') (x : SlotId) (off : Nat) :
    readWord q'.exch.mem (slotOffset x + off) = readWord q.exch.mem (slotOffset x + off) := by
  have hwords := h.words x off 1
  simpa only [readWords, List.cons.injEq, and_true] using hwords

end Part.RecordsKept

theorem RecordOpened.of_after {x : SlotId} (h : RecordOpened x c cls p q) (hs : q.RecordsKept q') :
    RecordOpened x c cls p q' where
  state := (slotState_congr q q' hs.slots x).trans h.state
  filling := hs.trip ▸ h.filling
  raised := hs.record ▸ h.raised
  fields f hf := (hs.word x f.1).trans (h.fields f hf)
  frame := (hs.words x _ _).trans h.frame
  latched := (hs.words x _ _).trans (hs.trip ▸ h.latched)
  conditions := (hs.words x _ _).trans h.conditions
  groups g := by
    have hg := hs.words x (0x40 + 6 * g.number) 3
    rw [← Nat.add_assoc] at hg
    exact hg.trans (h.groups g)
  motorA f hf := by
    have hw := hs.word x (0x60 + f.1)
    rw [← Nat.add_assoc] at hw
    exact hw.trans (h.motorA f hf)
  motorB f hf := by
    have hw := hs.word x (0x80 + f.1)
    rw [← Nat.add_assoc] at hw
    exact hw.trans (h.motorB f hf)
  preCount := (hs.word x _).trans h.preCount
  pre := (hs.words x _ _).trans h.pre
  fastCount := (hs.word x _).trans h.fastCount
  fast hlen := (hs.words x _ _).trans (h.fast hlen)
  stores hfast hlen a ha hout := (hs.slots a ha).trans (h.stores hfast hlen a ha hout)

theorem FollowOnNoted.of_after {f : Filling} (h : FollowOnNoted f c cls p q) (hs : q.RecordsKept q') :
    FollowOnNoted f c cls p q' where
  filling := hs.trip ▸ h.filling
  listed hf := by
    obtain ⟨hentry, hcount, hother⟩ := h.listed hf
    have hw := hs.words f.slot (0x10 + 4 * f.listed) 2
    rw [← Nat.add_assoc] at hw
    exact ⟨hw.trans hentry, (hs.word f.slot _).trans hcount,
      fun a ha h0 h1 hout => (hs.slots a ha).trans (hother a ha h0 h1 hout)⟩
  more hf := by
    obtain ⟨hcount, hother⟩ := h.more hf
    exact ⟨(hs.word f.slot _).trans hcount, fun a ha h0 h1 => (hs.slots a ha).trans (hother a ha h0 h1)⟩
  raised := hs.record.trans h.raised

/-- A trip recorded in `q` stays recorded where the slots, the trip unit and RECORD stand. -/
theorem TripRecorded.of_after (h : TripRecorded c cls p q) (hs : q.RecordsKept q') :
    TripRecorded c cls p q' := by
  constructor
  · exact fun f hf => (h.followOn f hf).of_after hs
  · exact fun hf x hx hlow => (h.opened hf x hx hlow).of_after hs
  · intro hf hx
    obtain ⟨hfill, hrec, hun, hbytes⟩ := h.unrecorded hf hx
    exact ⟨hs.trip ▸ hfill, hs.record.trans hrec, hs.trip ▸ hun,
      fun a ha => (hs.slots a ha).trans (hbytes a ha)⟩
  · exact fun hcase => hs.trip ▸ h.recorded hcase
  · exact hs.trip ▸ h.rings

end SameForRecord

/-! ## The cells over a trip event -/

theorem supersededRun_sameForRecord (n : CellId) (p : Part) (hwf : Memory.wf p.exch.mem = true) :
    p.SameForRecord (supersededRun n p) where
  keeps := supersededRun_keeps n p
  settings := by rw [Part.settings, supersededRun_orders]; rfl
  applyCount := by rw [supersededRun_orders]
  record := (supersededRun_raisesAtMost n p).others .record (by decide)
  slots a ha := by
    have hwrites : p.Writes (fun a => cellAnswerByte n a ∨ cellsResultByte (runCell p) a) (supersededRun n p) :=
      ((Part.Writes.take p n).mono (fun _ => .inl)).trans ((supersededRun_writes n p).mono (fun _ => .inr))
    refine (hwrites.storesOnly hwf).1 a ?_
    have hlow : 0x10000 ≤ a := ha
    rintro (h | ⟨k, _, h⟩)
    · have := cellOffset_bounds n
      unfold cellAnswerByte at h
      omega
    · have := cellOffset_bounds k
      unfold cellResultByte at h
      omega

/-- With no RUN in flight a trip event stores to slots, and to the cell of the STOP in flight as its finishing
does. -/
theorem tripEvent_writes (c : Cause) (cls : TripClass) (p : Part) (hrun : p.orders.run = none) :
    p.Writes (fun a => Config.slotBase ≤ a ∨ cellsResultByte (fun k => p.orders.stop = some k) a)
      (tripEvent c cls p) := by
  set before := tripOrder c cls (latchCause c cls p) with hbefore
  have horders : before.orders = p.orders := by rw [hbefore, tripOrder_orders]; rfl
  have hmem : before.exch.mem = p.exch.mem := by rw [hbefore, tripOrder_mem]; rfl
  have hstep : ordersAtTrip c (latchCause c cls p) before = finishStop .abortedByTrip before := by
    simp only [ordersAtTrip, horders, hrun]
  have hstop : before.Writes (cellsResultByte (fun k => p.orders.stop = some k))
      (finishStop .abortedByTrip before) :=
    (Part.Writes.refl _ _).endStop _ (fun k hk a ha => ⟨k, horders ▸ hk, ha⟩)
  have hrecord := stores_recordTrip c cls (recordHeader c cls (latchCause c cls p))
    (finishStop .abortedByTrip before)
  have hend : (tripEvent c cls p).exch.mem =
      (recordTrip c cls (recordHeader c cls (latchCause c cls p)) (finishStop .abortedByTrip before)).exch.mem := by
    rw [← hstep]
    rfl
  refine ⟨?_, tripEvent_guardCount _ _ _, tripEvent_guardedOffset _ _ _, by rw [tripEvent_acq]⟩
  rw [hend, ← hmem]
  exact (hstop.mem.mono (fun _ => .inr)).trans (hrecord.mono (fun _ ha => .inl ha))

end Sys2Proof.Machine
end

section
/-! HALT: its cases and the statement (R20, R160). -/

namespace Sys2Proof.Machine

theorem haltMethod_cases (w : Word) (cls : TripClass) (h : haltMethod w = some cls) :
    cls = .inhibitAll ∨ cls = .rampAll := by
  unfold haltMethod at h
  split at h <;> cases h
  · exact .inl rfl
  · exact .inr rfl

/-- The part after the trip event of HALT, its own cell not yet finished. -/
def haltTripped (n : CellId) (cls : TripClass) (p : Part) : Part :=
  tripEvent .halt cls (supersededRun n p)

theorem supersededRun_trip (n : CellId) (p : Part) : (supersededRun n p).trip = p.trip := finishRun_trip _ _

section Cases

variable (n : CellId) (p : Part) (cls : TripClass) (hwf : Memory.wf p.exch.mem = true)
  (hm : haltMethod (cellArg p n 0) = some cls)

include hwf hm

theorem orderHalt_new (h : latchedClass p.trip.latched .halt = none) :
    orderHalt n p = finishCell n .ok [wordOfNat cls.code] (haltTripped n cls p) := by
  have harg := cellArg_takeCell n n 0 p hwf (by decide)
  have htrip : (finishRun .superseded (takeCell n p)).trip = p.trip := finishRun_trip _ _
  simp only [orderHalt, harg, hm, htrip, h]
  rfl

theorem orderHalt_latched (old : TripClass) (h : latchedClass p.trip.latched .halt = some old) :
    orderHalt n p =
      if old = .rampAll ∧ cls = .inhibitAll then
        finishCell n .ok [wordOfNat cls.code] (raiseHalt (supersededRun n p))
      else finishCell n .already [wordOfNat old.code] (supersededRun n p) := by
  have harg := cellArg_takeCell n n 0 p hwf (by decide)
  have htrip : (finishRun .superseded (takeCell n p)).trip = p.trip := finishRun_trip _ _
  simp only [orderHalt, harg, hm, htrip, h]
  rfl

end Cases

/-! ## The trip event of HALT -/

section Tripped

variable (n : CellId) (p : Part) (cls : TripClass) (hwf : Memory.wf p.exch.mem = true)

theorem haltTripped_writes :
    (supersededRun n p).Writes
      (fun a => Config.slotBase ≤ a ∨ cellsResultByte (fun k => p.orders.stop = some k) a)
      (haltTripped n cls p) := by
  have hrun : (supersededRun n p).orders.run = none := by rw [supersededRun_orders]
  have hstop : (supersededRun n p).orders.stop = p.orders.stop := by rw [supersededRun_orders]
  exact hstop ▸ tripEvent_writes .halt cls (supersededRun n p) hrun

/-- From the taking of the cell to its finishing, what HALT stores beside the cells is in the slots. -/
theorem haltFinished_writes (code : ResultCode) (values : List Word) :
    (takeCell n p).Writes
      (fun a => Config.slotBase ≤ a ∨
        cellsResultByte (fun k => k = n ∨ runCell p k ∨ p.orders.stop = some k) a)
      (finishCell n code values (haltTripped n cls p)) := by
  refine (((supersededRun_writes n p).mono ?_).trans ((haltTripped_writes n p cls).mono ?_)).finish n code values
    (fun a ha => .inr ⟨n, .inl rfl, ha⟩)
  · exact fun a ⟨k, hk, ha⟩ => .inr ⟨k, .inr (.inl hk), ha⟩
  · exact fun a => Or.imp_right (fun ⟨k, hk, ha⟩ => ⟨k, .inr (.inr hk), ha⟩)

include hwf

theorem haltTripped_taken : TripTaken .halt cls (supersededRun n p) (haltTripped n cls p) :=
  tripEvent_taken .halt cls _ (supersededRun_wf n p hwf)

theorem haltTripped_wf : Memory.wf (haltTripped n cls p).exch.mem = true :=
  (haltTripped_writes n p cls).wf (supersededRun_wf n p hwf)

theorem haltTripped_orders :
    (haltTripped n cls p).orders =
      { p.orders with taken := p.orders.taken + 1#32, run := none, stop := none } := by
  have ht := (haltTripped_taken n p cls hwf).orders
  have hrun : (haltTripped n cls p).orders.run = none := by
    refine ht.runStays.elim id (fun h => h.trans ?_)
    rw [supersededRun_orders]
  rw [ht.entries, hrun, supersededRun_orders]

/-- The part of the trip event of HALT that reaches the cells keeps the cell of a superseded RUN. -/
theorem haltTripped_runCell (r : RunEntry) (hr : p.orders.run = some r) (hstop : p.orders.stop ≠ some r.cell) :
    CellFinished r.cell .superseded [] p (haltTripped n cls p) := by
  refine (haltTripped_writes n p cls).cellFinished (supersededRun_wf n p hwf)
    (supersededRun_finished n p hwf r hr) ?_
  rintro a (hslot | hcell) ha
  · have := cellOffset_bounds r.cell
    unfold cellAnswerByte at ha
    unfold Config.slotBase at hslot
    omega
  · exact hcell.not_answer hstop ha

theorem haltFinished_recorded (code : ResultCode) (values : List Word) :
    TripRecorded .halt cls p (finishCell n code values (haltTripped n cls p)) := by
  refine ((haltTripped_taken n p cls hwf).recorded.of_before (supersededRun_sameForRecord n p hwf)).of_after
    ⟨rfl, ?_, fun a ha => ?_⟩
  · rw [raised_finishCell]
    exact Bool.or_false _
  · refine (stores_finishedMemory _ n _ code values (haltTripped_wf n p cls hwf)).2 a ?_
    have := cellOffset_bounds n
    unfold cellAnswerByte
    unfold Config.slotBase at ha
    omega

theorem haltFinished_stores (code : ResultCode) (values : List Word) :
    Part.storesOnly (fun a => cellAnswerByte n a ∨ tripByte p a) p
      (finishCell n code values (haltTripped n cls p)) := by
  refine (((Part.Writes.take p n).mono (fun _ => .inl)).trans
    ((haltFinished_writes n p cls code values).mono ?_)).storesOnly hwf
  rintro a (hslot | ⟨k, rfl | ⟨r, hr, rfl⟩ | hstop, ha⟩)
  · exact .inr (.inl hslot)
  · exact .inl ha.answer
  · exact .inr (.inr (.inl ⟨r, hr, ha.answer⟩))
  · exact .inr (.inr (.inr ⟨k, hstop, ha.answer⟩))

theorem haltFinished_takenAt (code : ResultCode) (values : List Word) :
    CellTakenAt n p (finishCell n code values (haltTripped n cls p)) := by
  refine (haltFinished_writes n p cls code values).cellTakenAt hwf ?_ ?_
  · rintro a (hslot | hcell)
    · have := cellOffset_bounds n
      unfold Config.slotBase at hslot
      omega
    · exact hcell.not_takenFrame n
  · rw [finishCell_orders, haltTripped_orders n p cls hwf]

end Tripped

/-- The order of the class that HALT asks for (R159). -/
theorem haltTripped_seq (n : CellId) (p : Part) (cls : TripClass) (hcls : cls = .inhibitAll ∨ cls = .rampAll) :
    (haltTripped n cls p).seq = (if cls = .inhibitAll then inhibitAllOrder p else rampAllOrder p).seq := by
  have hseq := supersededRun_seq n p
  have hallot : (supersededRun n p).allot = p.allot := finishRun_allot _ _
  rcases hcls with rfl | rfl
  · rw [haltTripped, tripEvent_seq_inhibitAll, if_pos rfl]
    simp only [inhibitAllOrder, Part.setSeq_seq, hseq]
  · rw [haltTripped, tripEvent_seq_rampAll, if_neg (by decide)]
    simp only [rampAllOrder, Part.setSeq_seq, hseq, hallot]

/-- What HALT leaves while it is latched: the RUN superseded and its own cell finished, whatever was done to the
trip unit and the sequencer in between. -/
theorem haltLatched_spec (n : CellId) (p q : Part) (hwf : Memory.wf p.exch.mem = true)
    (hexch : q.exch = (supersededRun n p).exch) (hacq : q.acq = (supersededRun n p).acq)
    (hattn : q.attn = (supersededRun n p).attn) (horders : q.orders = (supersededRun n p).orders)
    (hcells : ∀ r, p.orders.run = some r → r.cell ≠ n) (code : ResultCode) (values : List Word) :
    (∀ r, p.orders.run = some r → CellFinished r.cell .superseded [] p (finishCell n code values q)) ∧
    CellTakenAt n p (finishCell n code values q) ∧ CellFinished n code values p (finishCell n code values q) ∧
    Part.storesOnly (fun a => cellAnswerByte n a ∨ ∃ r, p.orders.run = some r ∧ cellAnswerByte r.cell a) p
      (finishCell n code values q) ∧
    Part.raisesOnly [.order] p (finishCell n code values q) ∧
    (finishCell n code values q).orders =
      { p.orders with taken := p.orders.taken + 1#32, run := none } := by
  have hdone : q.orders = { p.orders with taken := p.orders.taken + 1#32, run := none } :=
    horders.trans (supersededRun_orders n p)
  have hchain : (takeCell n p).Writes (cellsResultByte (runCell p)) q :=
    (supersededRun_writes n p).of_exch hexch hacq
  obtain ⟨hfin, htaken, hstores⟩ := answered_of_chain hchain hwf (by rw [hdone]) code values
  refine ⟨fun r hr => ?_, htaken, hfin, hstores.mono (fun a => Or.imp_right runCell_answer),
    ((supersededRun_raisesAtMost n p).trans (.of_attn hattn)).raisesOnly_finish n code values, hdone⟩
  have hrun : CellFinished r.cell .superseded [] p q :=
    (supersededRun_finished n p hwf r hr).congr (fun a _ => by rw [hexch])
  exact hrun.finish_other (hexch ▸ supersededRun_wf n p hwf) (hcells r hr) _ _

theorem raiseHalt_seq (p : Part) : (raiseHalt p).seq = (inhibitAllOrder p).seq := rfl

theorem raiseHalt_keeps (p : Part) : Part.keeps [.seq, .trip] p (raiseHalt p) :=
  ((Part.keeps.refl _ p).setTrip _).setSeq _

/-- Settles O6, by whether and how HALT is latched. -/
theorem haltOrder : Obligations.HaltOrder := by
  intro n s rest ha hwf
  refine ⟨orderHalt n s.part, occur_order .halt n s rest ha, fun hm => ?_, fun cls hm hcells => ?_⟩
  · have hq : orderHalt n s.part = refuse n .badArgument (takeCell n s.part) := by
      simp only [orderHalt, cellArg_takeCell n n 0 s.part hwf (by decide), hm]
    exact hq ▸ orderRefused_of n .badArgument [] s.part hwf
  have horders := supersededRun_orders n s.part
  have hwf1 := supersededRun_wf n s.part hwf
  have hattn := supersededRun_raisesAtMost n s.part
  have htrip := supersededRun_trip n s.part
  cases hl : latchedClass s.part.trip.latched .halt with
  | none =>
    rw [orderHalt_new n s.part cls hwf hm hl]
    have ht := haltTripped_taken n s.part cls hwf
    have hwf2 := haltTripped_wf n s.part cls hwf
    have hcap : (supersededRun n s.part).cap = s.part.cap := finishRun_cap _ _
    have hframe : (haltTripped n cls s.part).acq.frameCount = s.part.acq.frameCount :=
      ((haltTripped_writes n s.part cls).frame).trans (supersededRun_writes n s.part).frame
    refine ⟨fun r hr => ?_, haltFinished_takenAt n s.part cls hwf _ _, fun _ => ⟨?_, ?_, ?_, ?_,
      haltFinished_recorded n s.part cls hwf _ _, fun e => ?_, ?_, ?_, ?_, fun src h1 h2 h3 => ?_, ?_,
      fun k hk hne => ?_, haltFinished_stores n s.part cls hwf _ _, ?_⟩, fun old hold => by cases hold⟩
    · obtain ⟨hne, hstop⟩ := hcells r hr
      exact (haltTripped_runCell n s.part cls hwf r hr hstop).finish_other hwf2 hne _ _
    · rw [finishCell_trip, ht.latched, htrip]
    · rw [finishCell_trip, ht.sequence, htrip]
    · rw [finishCell_seq]
      exact haltTripped_seq n s.part cls (haltMethod_cases _ _ hm)
    · rw [finishCell_orders]
      exact haltTripped_orders n s.part cls hwf
    · rw [finishCell_cap]
      split
      · next h => rw [ht.engines e (by rw [hcap]; exact h.1) (by rw [hcap]; exact h.2), hcap]
      · next h => rw [ht.otherEngines e (by rw [hcap]; exact h), hcap]
    · rw [raised_finishCell]
      rw [ht.raised, Bool.true_or]
    · rw [raised_finishCell]
      exact Bool.or_true _
    · rw [finishCell_routing, ht.attention.1, hattn.routing]
    · rw [raised_finishCell, beq_eq_false_iff_ne.2 h2.symm, Bool.or_false]
      rw [ht.attention.2 src h1 h2 h3, hattn.others src h2]
    · exact (cellFinished_finishCell n .ok _ (haltTripped n cls s.part) hwf2).of_frame hframe
    · have hentry : (supersededRun n s.part).orders.stop = some k := by rw [horders]; exact hk
      exact ((ht.orders.stopCell k hentry).of_frame (p := s.part)
        (supersededRun_writes n s.part).frame).finish_other hwf2 hne _ _
    · exact (((supersededRun_keeps n s.part).mono (by decide)).trans ht.keeps).finish n _ _
  | some old =>
    have hne := fun r hr => (hcells r hr).1
    rw [orderHalt_latched n s.part cls hwf hm old hl]
    split
    · next hraise =>
      obtain ⟨hold, hcls⟩ := hraise
      obtain ⟨hrun, htaken, hfin, hstores, hraises, hdone⟩ :=
        haltLatched_spec n s.part (raiseHalt (supersededRun n s.part)) hwf rfl rfl rfl rfl hne .ok
          [wordOfNat cls.code]
      refine ⟨hrun, htaken, fun h => (by cases h), fun x hx => ⟨hstores, hraises, hdone,
        fun _ => ⟨?_, ?_, ?_, ?_⟩,
        fun hnot => ?_⟩⟩
      · rw [finishCell_trip, ← htrip]
        rfl
      · rw [finishCell_seq, raiseHalt_seq]
        simp only [inhibitAllOrder, Part.setSeq_seq, supersededRun_seq]
      · rw [hcls] at hfin ⊢
        exact hfin
      · exact (((supersededRun_keeps n s.part).mono (by decide)).trans
          ((raiseHalt_keeps _).mono (by decide))).finish n _ _
      · exact absurd ⟨(Option.some.inj hx).symm.trans hold, hcls⟩ hnot
    · next hkeep =>
      obtain ⟨hrun, htaken, hfin, hstores, hraises, hdone⟩ :=
        haltLatched_spec n s.part (supersededRun n s.part) hwf rfl rfl rfl rfl hne .already [wordOfNat old.code]
      refine ⟨hrun, htaken, fun h => (by cases h), fun x hx => ?_⟩
      obtain rfl := Option.some.inj hx
      exact ⟨hstores, hraises, hdone, fun h => absurd h hkeep,
        fun _ => ⟨hfin, (supersededRun_keeps n s.part).finish n _ _⟩⟩

end Sys2Proof.Machine
end

section
/-! What each receiver takes from a scan (R66, R67, R136 to R138, R149, R166, R178), block by block. -/

namespace Sys2Proof.Machine

/-! ## Current control -/

section Control

variable (m : Motor) (p : Part)

/-- The run count after a result, the motor named (R67). -/
theorem runAfter_eq (run : Nat) (s : Sample) :
    runAfter (p.motorState m == .out) run s =
      if s.mark = .valid ∨ p.motorState m = .out then 0 else min 255 (run + 1) := by
  simp only [runAfter, countUp, Bool.or_eq_true, beq_iff_eq, or_comm]

theorem controlSamples_keeps : Part.keeps [.ctl] p (controlSamples m p).part := (Part.keeps.refl _ p).setCtl _

theorem controlSamples_other : (controlSamples m p).part.ctl.get m.other = p.ctl.get m.other :=
  PerMotor.get_set_other _ _ _

theorem controlSamples_ctl :
    (controlSamples m p).part.ctl.get m =
      let c := p.ctl.get m
      let sample := fun ch => p.acq.scan.getD ch Sample.zero
      let run := fun (old : Nat) (s : Sample) =>
        if s.mark = .valid ∨ p.motorState m = .out then 0 else min 255 (old + 1)
      { c with
        heldA := heldAfter c.heldA (sample (phaseChannel m))
        heldB := heldAfter c.heldB (sample (phaseChannel m + 1))
        heldUdc := heldAfter c.heldUdc (sample (udcChannel m))
        runA := run c.runA (sample (phaseChannel m))
        runB := run c.runB (sample (phaseChannel m + 1)) } := by
  simp only [controlSamples, Part.setCtl_ctl, PerMotor.get_set_same, runAfter_eq]

/-- What a scan makes due for motor `m`: a report for each run count that came to 4, then the computation. -/
theorem controlSamples_due :
    let c := (controlSamples m p).part.ctl.get m
    (controlSamples m p).due =
      (if c.runA = 4 then [Work.currentSensorLost m] else []) ++
        (if c.runB = 4 then [Work.currentSensorLost m] else []) ++ [Work.controlCompute m] := by
  simp only [controlSamples, Part.setCtl_ctl, PerMotor.get_set_same]

theorem currentSensorLost_mem_controlSamples :
    Work.currentSensorLost m ∈ (controlSamples m p).due ↔
      ((controlSamples m p).part.ctl.get m).runA = 4 ∨ ((controlSamples m p).part.ctl.get m).runB = 4 := by
  simp [controlSamples_due]

theorem controlSamples_due_last : (controlSamples m p).due.getLast? = some (.controlCompute m) :=
  List.getLast?_concat

end Control

/-! ## Vibration watch -/

section Vibration

/-- Channel `c` as the watch finds it once the settings in force are looked at (R37, R38). -/
def Part.appliedChannel (p : Part) (c : Accel) : Channel :=
  (p.vib.channel.get c).applied (p.settings.enables c) (decide (p.settings.windowCode ≠ p.vib.windowCode))

/-- Whether the watch counts a sample of channel `c` into its window: always, but in a self-test while measuring
and in its set alone (R149). -/
def Part.countsSample (p : Part) (c : Accel) : Prop :=
  p.vib.test = none ∨ ∃ t, p.vib.test = some t ∧ t.phase = .measuring ∧ t.set.get c = true

/-- Whether the settings in force bring a channel to another state: what raises VIBRATION at a scan (R38, R143). -/
def Part.vibrationChanged (p : Part) : Bool :=
  Accel.all.any (fun c => (p.appliedChannel c).state != (p.vib.channel.get c).state)

/-- The vibration watch after a scan. -/
def Part.vibrationScanned (p : Part) : Vibration :=
  { p.vib with
    channel := PerAccel.ofFun (fun c => channelScan p c (p.appliedChannel c))
    windowCode := p.settings.windowCode
    test := p.vib.test.map (fun t => { t with count := t.count + 1 }) }

theorem Channel.applied_eq (c : Channel) (enabled changed : Bool) :
    c.applied enabled changed =
      if enabled = false then (if c.state = .disabled then c else Channel.cleared .disabled)
      else if c.state = .disabled then Channel.cleared .normal
      else if changed then c.windowCleared else c := by
  unfold Channel.applied
  cases enabled <;> cases c.state <;> rfl

variable (p : Part) (c : Accel)

theorem appliedChannel_eq :
    p.appliedChannel c =
      let old := p.vib.channel.get c
      if p.settings.enables c = false then (if old.state = .disabled then old else Channel.cleared .disabled)
      else if old.state = .disabled then Channel.cleared .normal
      else if p.settings.windowCode = p.vib.windowCode then old else old.windowCleared := by
  rw [Part.appliedChannel, Channel.applied_eq]
  simp only [decide_eq_true_iff, ite_not]

/-! ### One channel's sample -/

theorem channelScan_disabled (ch : Channel) (h : ch.state = .disabled) : channelScan p c ch = ch := by
  simp only [channelScan, h, if_true]

theorem channelScan_of_counted (ch : Channel) (h : ch.state ≠ .disabled) (hcount : p.countsSample c) :
    channelScan p c ch =
      let s := p.acq.scan.getD (Accel.analog c) Sample.zero
      (ch.filter p.settings.highPass s).accumulate s := by
  obtain htest | ⟨t, htest, hphase, hset⟩ := hcount
  · simp only [channelScan, h, htest, if_false]
  · simp only [channelScan, h, htest, hphase, hset, and_self, if_false, if_true]

theorem channelScan_of_not_counted (ch : Channel) (h : ch.state ≠ .disabled) (hcount : ¬ p.countsSample c) :
    channelScan p c ch = ch.filter p.settings.highPass (p.acq.scan.getD (Accel.analog c) Sample.zero) := by
  cases htest : p.vib.test with
  | none => exact absurd (.inl htest) hcount
  | some t =>
    have hout : ¬ (t.phase = .measuring ∧ t.set.get c = true) := fun ht => hcount (.inr ⟨t, htest, ht⟩)
    simp only [channelScan, h, htest, hout, if_false]

theorem Channel.accumulate_eq (ch : Channel) (s : Sample) :
    ch.accumulate s =
      { ch with
        accumulator := ch.accumulator + ch.yPrev.natAbs * ch.yPrev.natAbs
        samples := ch.samples + 1
        invalid := if s.mark = .valid then ch.invalid else ch.invalid + 1 } := by
  rw [Channel.accumulate, ← Int.natAbs_mul_self, Int.toNat_natCast]

/-! ### The whole watch -/

theorem vibrationChanged_iff :
    p.vibrationChanged = true ↔ ∃ c, (p.appliedChannel c).state ≠ (p.vib.channel.get c).state := by
  simp [Part.vibrationChanged, Accel.mem_all]

theorem vibrationScan_part :
    (vibrationScan p).part =
      if p.vibrationChanged then raiseSource .vibration (p.setVib p.vibrationScanned)
      else p.setVib p.vibrationScanned := by
  simp only [vibrationScan, PerAccel.get_ofFun]
  rfl

theorem vibrationScan_vib : (vibrationScan p).part.vib = p.vibrationScanned := by
  rw [vibrationScan_part]
  split <;> rfl

theorem vibrationScan_channel :
    (vibrationScan p).part.vib.channel.get c = channelScan p c (p.appliedChannel c) := by
  rw [vibrationScan_vib]
  exact PerAccel.get_ofFun _ c

theorem vibrationScan_keeps : Part.keeps [.vib, .attn] p (vibrationScan p).part := by
  have hvib : Part.keeps [.vib, .attn] p (p.setVib p.vibrationScanned) := (Part.keeps.refl _ p).setVib _
  rw [vibrationScan_part]
  split
  · exact hvib.raise .vibration
  · exact hvib

theorem vibrationScan_raises (h : ∃ c, (p.appliedChannel c).state ≠ (p.vib.channel.get c).state) :
    Part.raisesOnly [.vibration] p (vibrationScan p).part := by
  rw [vibrationScan_part, if_pos ((vibrationChanged_iff p).2 h)]
  exact raisesOnly_raiseSource .vibration (p.setVib p.vibrationScanned)

theorem vibrationScan_attn (h : ∀ c, (p.appliedChannel c).state = (p.vib.channel.get c).state) :
    (vibrationScan p).part.attn = p.attn := by
  have hsame : ¬ p.vibrationChanged = true := fun hc =>
    ((vibrationChanged_iff p).1 hc).elim (fun c hne => hne (h c))
  rw [vibrationScan_part, if_neg hsame]
  rfl

/-- Outside a self-test the windows that are full end, then the groups are formed (log 21). -/
theorem vibrationScan_due_of_idle (h : p.vib.test = none) :
    (vibrationScan p).due =
      (Accel.all.filter (fun c => ((vibrationScan p).part.vib.channel.get c).state != .disabled &&
        decide (p.settings.window ≤ ((vibrationScan p).part.vib.channel.get c).samples))).map Work.windowEnd ++
      [Work.vibrationGroups] := by
  rw [vibrationScan_vib]
  simp only [vibrationScan, h, Option.map_none]
  rfl

theorem windowEnd_mem_vibrationScan (h : p.vib.test = none) :
    Work.windowEnd c ∈ (vibrationScan p).due ↔
      ((vibrationScan p).part.vib.channel.get c).state ≠ .disabled ∧
        p.settings.window ≤ ((vibrationScan p).part.vib.channel.get c).samples := by
  simp [vibrationScan_due_of_idle p h, Accel.mem_all]

theorem vibrationScan_due_of_test (t : Selftest) (h : p.vib.test = some t) :
    (vibrationScan p).due = selftestDue { t with count := t.count + 1 } p.settings.window := by
  simp only [vibrationScan, h, Option.map_some]

end Vibration

/-! ## Capture unit -/

section Capture

variable (p : Part) (e : EngineId)

theorem EngineId.mem_all : e ∈ EngineId.all := by cases e <;> decide

theorem captureScan_keeps : Part.keeps [.cap] p (captureScan p).part := (Part.keeps.refl _ p).setCap _

theorem captureScan_of_not_running (h : (p.cap.get e).state ≠ .running) :
    (captureScan p).part.cap.get e = p.cap.get e := by
  simp only [captureScan, Part.setCap_cap, PerEngine.get_map]
  split
  · next hrun => exact absurd hrun h
  all_goals rfl

theorem captureScan_of_running (h : (p.cap.get e).state = .running) :
    (captureScan p).part.cap.get e =
      (p.cap.get e).take (p.acq.scan.getD (p.cap.get e).channel Sample.zero) p.acq.frameCount p.acq.period := by
  simp only [captureScan, Part.setCap_cap, PerEngine.get_map, h]

theorem captureBlockWrite_mem_captureScan_iff :
    Work.captureBlockWrite e ∈ (captureScan p).due ↔
      ((captureScan p).part.cap.get e).state = .running ∧
        256 ≤ ((captureScan p).part.cap.get e).block.length := by
  simp [captureScan, EngineId.mem_all]

theorem captureBlockWrite_mem_captureScan :
    Work.captureBlockWrite e ∈ (captureScan p).due ↔
      (p.cap.get e).state = .running ∧ 256 ≤ (p.cap.get e).block.length + 1 := by
  rw [captureBlockWrite_mem_captureScan_iff]
  by_cases h : (p.cap.get e).state = .running
  · simp [captureScan_of_running p e h, Engine.take, h]
  · simp [captureScan_of_not_running p e h, h]

/-- The time of the first sample stays once it is kept (R178). -/
theorem Engine.take_firstTime (x : Engine) (s : Sample) (frame : BitVec 32) (period : Nat) :
    (x.take s frame period).firstTime = some (x.firstTime.getD (frame, period)) := by
  unfold Engine.take
  cases x.firstTime <;> rfl

end Capture

/-! ## Fast ring -/

theorem appendRing_of_lt {α : Type} (capacity : Nat) (ring : List α) (x : α) (h : ring.length < capacity) :
    appendRing capacity ring x = ring ++ [x] := by
  rw [appendRing, Nat.sub_eq_zero_of_le h, List.drop_zero]

theorem appendRing_of_full {α : Type} (capacity : Nat) (ring : List α) (x : α) (h : ring.length = capacity)
    (hpos : 0 < capacity) : appendRing capacity ring x = ring.tail ++ [x] := by
  rw [appendRing, h, Nat.add_sub_cancel_left, List.drop_one, List.tail_append_of_ne_nil]
  exact List.ne_nil_of_length_pos (h ▸ hpos)

theorem fastScan_keeps (p : Part) : Part.keeps [.trip] p (fastScan p) := (Part.keeps.refl _ p).setTrip _

/-- Settles O59, receiver by receiver. -/
theorem scanReceived : Obligations.ScanReceived := by
  intro p sample
  refine ⟨fun m => ?control, ?vibration, ?capture, ?fast⟩
  case control =>
    cases m <;>
    exact ⟨controlSamples_keeps _ p, controlSamples_other _ p, controlSamples_ctl _ p,
      currentSensorLost_mem_controlSamples _ p, controlSamples_due_last _ p⟩
  case vibration =>
    intro work vib window fresh applied counted
    have happlied : ∀ c, applied c = p.appliedChannel c := fun c => (appliedChannel_eq p c).symm
    refine ⟨vibrationScan_keeps p, ?_, ?_, ?_, fun c => ?_, fun ht => ⟨?_, fun c => ?_⟩, fun t ht => ?_⟩
    · have hvib : vib = p.vibrationScanned := vibrationScan_vib p
      rw [hvib]
      rfl
    · simp only [happlied]
      exact vibrationScan_raises p
    · simp only [happlied]
      exact vibrationScan_attn p
    · intro old s x y
      have hold : old = p.appliedChannel c := happlied c
      have hchannel : vib.channel.get c = channelScan p c old := hold ▸ vibrationScan_channel p c
      refine ⟨fun hd => ?_, fun hd hc => ?_, fun hd hc => ?_⟩
      · exact hchannel.trans (channelScan_disabled p c old hd)
      · exact hchannel.trans (channelScan_of_not_counted p c old hd hc)
      · exact (hchannel.trans (channelScan_of_counted p c old hd hc)).trans (Channel.accumulate_eq _ _)
    · exact (congrArg List.getLast? (vibrationScan_due_of_idle p ht)).trans List.getLast?_concat
    · exact windowEnd_mem_vibrationScan p c ht
    · refine (vibrationScan_due_of_test p t ht).trans ?_
      unfold selftestDue
      cases t.phase <;> rfl
  case capture =>
    refine ⟨captureScan_keeps p, fun e => ?_⟩
    intro old new s
    refine ⟨captureScan_of_not_running p e, fun h => ?_, captureBlockWrite_mem_captureScan p e⟩
    have hnew : new = old.take s p.acq.frameCount p.acq.period := captureScan_of_running p e h
    rw [hnew, ← Engine.take_firstTime old s]
    exact ⟨rfl, rfl⟩
  case fast =>
    exact ⟨rfl, fastScan_keeps p, _, rfl, rfl, rfl, rfl, appendRing_of_lt _ _ _,
      fun h => appendRing_of_full _ _ _ h (by decide)⟩

end Sys2Proof.Machine
end

section
/-! The encoders: transitions, the line-break line and validity (R51, R52, R61). -/

namespace Sys2Proof

theorem PerMotor.set_get_self {α : Type} (x : PerMotor α) (m : Motor) : x.set m (x.get m) = x := by
  cases m <;> rfl

end Sys2Proof

namespace Sys2Proof.Machine

/-- One encoder replaced. -/
def Part.setEncoder (p : Part) (m : Motor) (e : Encoder) : Part :=
  p.setAcq { p.acq with enc := p.acq.enc.set m e }

@[simp] theorem Part.setEncoder_get (p : Part) (m : Motor) (e : Encoder) :
    (p.setEncoder m e).acq.enc.get m = e := PerMotor.get_set_same _ m e

theorem Part.setEncoder_self (p : Part) (m : Motor) : p.setEncoder m (p.acq.enc.get m) = p := by
  unfold Part.setEncoder
  rw [PerMotor.set_get_self]
  rfl

/-! ## Transitions -/

/-- The work that one more legal transition brings about (R52). -/
def Encoder.regained (e : Encoder) (m : Motor) : List Work :=
  if countUp 16 e.legalRun = 16 ∧ e.valid = false then [Work.encoderValidRegained m] else []

/-- An encoder after a legal transition that brings the counter to `c` (R51). -/
def Encoder.counted (e : Encoder) (a b : Bool) (c : BitVec 32) : Encoder :=
  { e with p := a, q := b, counter := c, legalRun := countUp 16 e.legalRun }

/-- An encoder after a change of both signals at once (R52). -/
def Encoder.upset (e : Encoder) (a b : Bool) : Encoder :=
  { e with p := a, q := b, valid := false, legalRun := 0, disturbed := true }

/-! How far a changed pair lies from the one before, in the sequence of R51. -/

theorem pairPlace_next (x y : Bool) : (pairPlace y (!x) + 4 - pairPlace x y) % 4 = 1 := by
  cases x <;> cases y <;> rfl

theorem pairPlace_previous (x y : Bool) : (pairPlace (!y) x + 4 - pairPlace x y) % 4 = 3 := by
  cases x <;> cases y <;> rfl

theorem pairPlace_opposite (x y : Bool) : (pairPlace (!x) (!y) + 4 - pairPlace x y) % 4 = 2 := by
  cases x <;> cases y <;> rfl

section Transition

variable (m : Motor) (a b : Bool) (p : Part)

theorem encoderTransition_unjudged (h : p.phase ≠ .ready ∨ (p.acq.enc.get m).lineBreak = true) :
    encoderTransition m a b p =
      { part := p.setEncoder m { p.acq.enc.get m with p := a, q := b }, due := [] } := by
  have hskip : ((p.acq.enc.get m).lineBreak || !p.isReady) = true := by
    rcases h with hphase | hline
    · simp [isReady_eq_false p hphase]
    · simp [hline]
  unfold encoderTransition
  simp only [hskip, if_true]
  rfl

variable (hready : p.phase = .ready) (hline : (p.acq.enc.get m).lineBreak = false)

include hready hline

theorem encoderTransition_judged : ((p.acq.enc.get m).lineBreak || !p.isReady) = false := by
  simp [hline, (isReady_iff p).2 hready]

theorem encoderTransition_same (h : (a, b) = ((p.acq.enc.get m).p, (p.acq.enc.get m).q)) :
    encoderTransition m a b p = { part := p.setEncoder m (p.acq.enc.get m), due := [] } := by
  obtain ⟨rfl, rfl⟩ := Prod.mk.inj h
  rw [Part.setEncoder_self]
  simp [encoderTransition, encoderTransition_judged m p hready hline, Effect.only]

theorem encoderTransition_next (h : (a, b) = ((p.acq.enc.get m).q, !(p.acq.enc.get m).p)) :
    encoderTransition m a b p =
      { part := p.setEncoder m ((p.acq.enc.get m).counted a b ((p.acq.enc.get m).counter + 1#32))
        due := (p.acq.enc.get m).regained m } := by
  obtain ⟨rfl, rfl⟩ := Prod.mk.inj h
  simp [encoderTransition, encoderTransition_judged m p hready hline, pairPlace_next,
    Part.setEncoder, Encoder.counted, Encoder.regained]

theorem encoderTransition_previous (h : (a, b) = (!(p.acq.enc.get m).q, (p.acq.enc.get m).p)) :
    encoderTransition m a b p =
      { part := p.setEncoder m ((p.acq.enc.get m).counted a b ((p.acq.enc.get m).counter - 1#32))
        due := (p.acq.enc.get m).regained m } := by
  obtain ⟨rfl, rfl⟩ := Prod.mk.inj h
  simp [encoderTransition, encoderTransition_judged m p hready hline, pairPlace_previous,
    Part.setEncoder, Encoder.counted, Encoder.regained]

theorem encoderTransition_opposite (h : (a, b) = (!(p.acq.enc.get m).p, !(p.acq.enc.get m).q)) :
    encoderTransition m a b p =
      { part := p.setEncoder m ((p.acq.enc.get m).upset a b), due := [] } := by
  obtain ⟨rfl, rfl⟩ := Prod.mk.inj h
  simp [encoderTransition, encoderTransition_judged m p hready hline, pairPlace_opposite,
    Part.setEncoder, Encoder.upset, Effect.only]

end Transition

/-- The four ways in which a pair can stand to the one before. -/
theorem pair_cases : ∀ x y a b : Bool,
    (a, b) = (x, y) ∨ (a, b) = (y, !x) ∨ (a, b) = (!y, x) ∨ (a, b) = (!x, !y) := by
  decide

/-- A transition changes one encoder alone. -/
theorem encoderTransition_part (m : Motor) (a b : Bool) (p : Part) :
    (encoderTransition m a b p).part =
      p.setEncoder m ((encoderTransition m a b p).part.acq.enc.get m) := by
  have key : ∀ e due, encoderTransition m a b p = { part := p.setEncoder m e, due } →
      (encoderTransition m a b p).part =
        p.setEncoder m ((encoderTransition m a b p).part.acq.enc.get m) := by
    intro e due h
    rw [h, Part.setEncoder_get]
  by_cases h : p.phase ≠ .ready ∨ (p.acq.enc.get m).lineBreak = true
  · exact key _ _ (encoderTransition_unjudged m a b p h)
  · obtain ⟨hready, hline⟩ : p.phase = .ready ∧ (p.acq.enc.get m).lineBreak = false := by
      simpa using h
    rcases pair_cases (p.acq.enc.get m).p (p.acq.enc.get m).q a b with h | h | h | h
    · exact key _ _ (encoderTransition_same m a b p hready hline h)
    · exact key _ _ (encoderTransition_next m a b p hready hline h)
    · exact key _ _ (encoderTransition_previous m a b p hready hline h)
    · exact key _ _ (encoderTransition_opposite m a b p hready hline h)

/-- Settles O35, by the way in which the pair stands to the one before. -/
theorem encoderTransitionCounted : Obligations.EncoderTransitionCounted := by
  intro m a b s hbetween e run regained
  have hexec : exec (.encoderTransition m a b) s =
      actWith (encoderTransition m a b) (finishEvent s) := rfl
  rw [finishEvent_of_between s hbetween] at hexec
  have told : ∀ {e' : Encoder} {due : List Work},
      encoderTransition m a b s.part = { part := s.part.setEncoder m e', due } →
      (encoderTransition m a b s.part).part.acq.enc.get m = e' ∧
        (encoderTransition m a b s.part).due = due := by
    intro e' due h
    rw [h]
    exact ⟨Part.setEncoder_get _ m e', rfl⟩
  refine ⟨(encoderTransition m a b s.part).part.acq.enc.get m, (encoderTransition m a b s.part).due,
    ?_, fun h => told (encoderTransition_unjudged m a b s.part h), fun hready hline =>
    ⟨fun h => told (encoderTransition_same m a b s.part hready hline h),
      fun h => told (encoderTransition_next m a b s.part hready hline h),
      fun h => told (encoderTransition_previous m a b s.part hready hline h),
      fun h => told (encoderTransition_opposite m a b s.part hready hline h)⟩⟩
  rw [hexec]
  exact congrArg (fun p => Host.Outcome.next { s with
    agenda := (encoderTransition m a b s.part).due ++ s.agenda, part := p })
    (encoderTransition_part m a b s.part)

/-! ## The line-break line and validity -/

/-- An encoder whose line-break line is asserted, in READY or while a reset is in progress (R52, R61). -/
def Encoder.broken (e : Encoder) (ready : Bool) : Encoder :=
  if ready then { e with lineBreak := true, valid := false, legalRun := 0, disturbed := true }
  else { e with lineBreak := true }

theorem lineBreakAsserted_eq (m : Motor) (p : Part) :
    lineBreakAsserted m p = p.setEncoder m ((p.acq.enc.get m).broken p.isReady) := rfl

theorem lineBreakReleased_eq (m : Motor) (p : Part) :
    lineBreakReleased m p = p.setEncoder m { p.acq.enc.get m with lineBreak := false } := rfl

theorem encoderValidRegained_eq (m : Motor) (p : Part) :
    encoderValidRegained m p = p.setEncoder m { p.acq.enc.get m with valid := true } := rfl

/-- Settles O36: each of the three commands replaces one encoder. -/
theorem encoderLineAndValidity : Obligations.EncoderLineAndValidity := by
  intro m s e withEncoder
  refine ⟨fun hbetween => ?asserted, ?released, fun rest ha => ?regained⟩
  case asserted =>
    intro broken
    have hexec : exec (.lineBreakAsserted m) s = actOn (lineBreakAsserted m) (finishEvent s) := rfl
    rw [hexec, finishEvent_of_between s hbetween, actOn, lineBreakAsserted_eq]
    by_cases hready : s.part.phase = .ready
    · simp only [broken, if_pos hready, (isReady_iff s.part).2 hready]
      rfl
    · simp only [broken, if_neg hready, isReady_eq_false s.part hready]
      rfl
  case released =>
    have hexec : exec (.lineBreakReleased m) s = actOn (lineBreakReleased m) s := rfl
    rw [hexec, actOn, lineBreakReleased_eq]
    rfl
  case regained =>
    have hexec : exec (.encoderValidRegained m) s = occur (.encoderValidRegained m) s := rfl
    rw [hexec, occur, occurWith_head _ _ s rest rfl ha, runWork, encoderValidRegained_eq]
    rfl

end Sys2Proof.Machine
end

section
/-! The timer and the scan: the expiry, the conversion slots, the hand-overs, and the frame event with the order
unit's scan of the cells (R12, R47 to R50, R82). -/

namespace Sys2Proof.Machine

/-! ## Orders of work -/

section CompleteOrder

variable {α : Type} [DecidableEq α]

/-- An element put behind a list that lacks it. -/
def appendNew (acc : List α) (x : α) : List α := if acc.contains x then acc else acc ++ [x]

theorem mem_appendNew (acc : List α) (x y : α) : y ∈ appendNew acc x ↔ y ∈ acc ∨ y = x := by
  unfold appendNew
  split
  · next h =>
    have hx : x ∈ acc := List.contains_iff_mem.1 h
    exact ⟨.inl, fun hy => hy.elim id (fun e => e ▸ hx)⟩
  · simp

theorem nodup_appendNew (acc : List α) (x : α) (h : acc.Nodup) : (appendNew acc x).Nodup := by
  unfold appendNew
  split
  · exact h
  · next hx =>
    have hx : x ∉ acc := fun hm => hx (List.contains_iff_mem.2 hm)
    exact List.nodup_append.2 ⟨h, List.nodup_singleton x, fun y hy z hz e =>
      hx (List.mem_singleton.1 hz ▸ e ▸ hy)⟩

theorem appendNew_extends (acc : List α) (x : α) : acc <+: appendNew acc x := by
  unfold appendNew
  split
  · exact ⟨[], List.append_nil acc⟩
  · exact ⟨[x], rfl⟩

theorem foldl_appendNew_spec (xs acc : List α) (h : acc.Nodup) :
    (xs.foldl appendNew acc).Nodup ∧ acc <+: xs.foldl appendNew acc ∧
      ∀ y, y ∈ xs.foldl appendNew acc ↔ y ∈ acc ∨ y ∈ xs := by
  induction xs generalizing acc with
  | nil => exact ⟨h, ⟨[], List.append_nil acc⟩, by simp⟩
  | cons x xs ih =>
    obtain ⟨hnodup, hextends, hmem⟩ := ih (appendNew acc x) (nodup_appendNew acc x h)
    exact ⟨hnodup, (appendNew_extends acc x).trans hextends, fun y => by
      rw [List.foldl_cons, hmem, mem_appendNew, List.mem_cons, or_assoc]⟩

/-- Elements that do not stand twice go behind a list that holds none of them as they are. -/
theorem foldl_appendNew_of_noRepeats (xs acc : List α) (h : noRepeats xs = true)
    (hdisjoint : ∀ x ∈ xs, x ∉ acc) : xs.foldl appendNew acc = acc ++ xs := by
  induction xs generalizing acc with
  | nil => simp
  | cons x xs ih =>
    obtain ⟨hx, hxs⟩ : x ∉ xs ∧ noRepeats xs = true := by simpa [noRepeats] using h
    have hnew : appendNew acc x = acc ++ [x] := if_neg (by simpa using hdisjoint x (by simp))
    rw [List.foldl_cons, hnew, ih _ hxs, List.append_assoc, List.singleton_append]
    intro y hy hmem
    rcases List.mem_append.1 hmem with hacc | hyx
    · exact hdisjoint y (by simp [hy]) hacc
    · exact hx (List.mem_singleton.1 hyx ▸ hy)

theorem completeOrder_eq (order rest : List α) :
    completeOrder order rest = rest.foldl appendNew (order.foldl appendNew []) := by
  rw [← List.foldl_append]
  rfl

/-- Each element stands once in an order completed by all there are. -/
theorem count_completeOrder (order rest : List α) (x : α) (h : x ∈ rest) :
    (completeOrder order rest).count x = 1 := by
  rw [completeOrder_eq]
  obtain ⟨hnodup, _, _⟩ := foldl_appendNew_spec order [] List.nodup_nil
  obtain ⟨hall, _, hmem⟩ := foldl_appendNew_spec rest _ hnodup
  exact List.count_eq_one_of_mem hall ((hmem x).2 (.inr h))

/-- An order that names no element twice stands first, as it is, when it is completed. -/
theorem completeOrder_extends (order rest : List α) (h : noRepeats order = true) :
    order <+: completeOrder order rest := by
  have horder : order.foldl appendNew [] = order :=
    (foldl_appendNew_of_noRepeats order [] h (by simp)).trans (List.nil_append order)
  obtain ⟨hnodup, _, _⟩ := foldl_appendNew_spec order [] List.nodup_nil
  rw [completeOrder_eq, horder]
  rw [horder] at hnodup
  exact (foldl_appendNew_spec rest order hnodup).2.1

end CompleteOrder

theorem mem_frameBlocks (b : FrameBlock) : b ∈ FrameBlock.all := by cases b <;> decide

theorem mem_scanBlocks (b : ScanBlock) : b ∈ ScanBlock.all := by cases b <;> decide

/-! ## The frame event -/

theorem frameEvent_keeps (order : List FrameBlock) (p : Part) :
    Part.keeps [.acq] p (frameEvent order p).part := (Part.keeps.refl _ p).setAcq _

theorem cellOffset_eq (n : CellId) : cellOffset n = 0x100 + 0x40 * n.val := by
  unfold cellOffset
  rw [Nat.mul_comm]

/-- The kinds of R15 by number. -/
def listedKinds : List OrderKind :=
  [.unknown, .applySettings, .applyRatings, .run, .stop, .halt, .setSpeed, .clearTrip, .motorOut,
   .motorIn, .capture, .captureCancel, .vibSelftest, .linkTest, .linkReset]

theorem orderKind_ofNat (k : Nat) (h : k < 65536) :
    orderKind (BitVec.ofNat 16 k) = listedKinds.getD k .unknown := by
  by_cases hk : k ≤ 14
  · interval_cases k <;> rfl
  · have hlarge : 14 < (BitVec.ofNat 16 k).toNat := by
      rw [BitVec.toNat_ofNat, Nat.mod_eq_of_lt h]
      omega
    rw [orderKind_unknown _ (.inr hlarge), List.getD_eq_default]
    show 15 ≤ k
    omega

theorem scanCell_posted (n : CellId) (p : Part)
    (h : readWord p.exch.mem (0x100 + 0x40 * n.val) = 1#16) :
    scanCell n p =
      { part := p, due := [.order (orderKind (readWord p.exch.mem (0x102 + 0x40 * n.val))) n] } := by
  have hstate : cellState p n = cellPosted := by rw [cellState, cellOffset_eq, h]
  have hkind : cellKind p n = readWord p.exch.mem (0x102 + 0x40 * n.val) := by
    rw [cellKind, cellOffset_eq, Nat.add_right_comm]
  rw [scanCell, if_pos hstate, hkind]

theorem scanCell_other (n : CellId) (p : Part)
    (h : readWord p.exch.mem (0x100 + 0x40 * n.val) ≠ 1#16) :
    scanCell n p = { part := p, due := [] } := by
  have hstate : cellState p n ≠ cellPosted := by rwa [cellState, cellOffset_eq]
  rw [scanCell, if_neg hstate]
  rfl

/-- Settles O32 (`frameEvent` is the model's own name): the frame event, then the order unit's scan. -/
theorem frameEvent_holds : Obligations.FrameEvent := by
  refine ⟨fun order s rest ha => ⟨(frameEvent order s.part).part, completeOrder order FrameBlock.all,
      ?_, rfl, frameEvent_keeps order s.part, fun b => count_completeOrder _ _ b (mem_frameBlocks b),
      completeOrder_extends order _⟩, fun order s ha => ?_, fun _ => rfl,
    fun n p => ⟨scanCell_posted n p, scanCell_other n p⟩, orderKind_ofNat⟩
  · exact occurWith_head .supervisionFrame _ s rest rfl ha
  · exact occurWith_of_nil .supervisionFrame _ s ha

/-! ## The scan's completion -/

theorem scanComplete_keeps (order : List ScanBlock) (p : Part) :
    Part.keeps [.acq] p (scanComplete order p).part := (Part.keeps.refl _ p).setAcq _

/-- Settles O34: the results replace the set, and every receiver has its work due. -/
theorem scanCompleted : Obligations.ScanCompleted := by
  refine ⟨fun order s rest ha => ⟨(scanComplete order s.part).part, completeOrder order ScanBlock.all,
      ?_, rfl, scanComplete_keeps order s.part, fun b => count_completeOrder _ _ b (mem_scanBlocks b),
      completeOrder_extends order _⟩, fun order s ha => ?_⟩
  · exact occurWith_head .scanComplete _ s rest rfl ha
  · exact occurWith_of_nil .scanComplete _ s ha

/-! ## Conversion slots -/

theorem conversionSlotEnd_of_none (input : Option Int) (p : Part) (h : p.acq.slot = none) :
    conversionSlotEnd input p = .only p := by
  unfold conversionSlotEnd
  rw [h]

/-- The part once the result of channel `ch` is added and its slot is over (R48). -/
def slotEnded (ch : Nat) (r : Sample) (p : Part) : Part :=
  p.setAcq { p.acq with
    converted := p.acq.converted ++ [r], slot := if ch < 13 then some (ch + 1) else none }

/-- The comparator's report of a result, if any (R50). -/
def comparatorReport (ch : Nat) (r : Sample) (p : Part) : Part :=
  match comparatorOf ch with
  | some m => if overcurrent p.orders.ratings.overcurrent r then report (.overcurrent m) p else p
  | none => p

theorem conversionSlotEnd_of_some (input : Option Int) (p : Part) (ch : Nat) (h : p.acq.slot = some ch) :
    conversionSlotEnd input p =
      { part := comparatorReport ch (convert input) (slotEnded ch (convert input) p)
        due := if ch < 13 then [] else [.scanComplete] } := by
  unfold conversionSlotEnd
  rw [h]
  rfl

/-- The two ends of full scale may be looked at in either order (R49). -/
theorem convert_some (x : Int) : convert (some x) =
    if 32767 < x then { value := 32767, mark := .invalidRange }
    else if x < -32767 then { value := -32767, mark := .invalidRange }
    else { value := x, mark := .valid } := by
  by_cases hhigh : 32767 < x
  · have hlow : ¬ x < -32767 := by omega
    simp only [convert, if_pos hhigh, if_neg hlow]
  · simp only [convert, if_neg hhigh]

theorem comparatorOf_eq : ∀ ch : Nat, comparatorOf ch =
    if ch = 0 ∨ ch = 1 then some .a else if ch = 2 ∨ ch = 3 then some .b else none
  | 0 | 1 | 2 | 3 => rfl
  | ch + 4 => by simp [comparatorOf]

theorem overcurrent_iff (threshold : Int) (r : Sample) :
    overcurrent threshold r = true ↔
      r.mark = .invalidRange ∨ (r.mark = .valid ∧ threshold ≤ r.value.natAbs) := by
  unfold overcurrent
  cases r.mark <;> simp

theorem comparatorReport_of_owned (ch : Nat) (r : Sample) (p : Part) (m : Motor)
    (hm : comparatorOf ch = some m) (ho : overcurrent p.orders.ratings.overcurrent r = true) :
    comparatorReport ch r p = report (.overcurrent m) p := by
  simp only [comparatorReport, hm, ho, if_true]

/-- The comparator leaves the part alone unless it has a cause to report that is not latched. -/
theorem comparatorReport_of_quiet (ch : Nat) (r : Sample) (p : Part)
    (h : ∀ m, comparatorOf ch = some m → overcurrent p.orders.ratings.overcurrent r = true →
      isLatched p.trip.latched (.overcurrent m) = true) : comparatorReport ch r p = p := by
  unfold comparatorReport
  split
  · next m hm =>
    split
    · next ho => exact report_of_latched _ p (h m hm ho)
    · rfl
  · rfl

/-- Settles O33: the result added, then the comparator. -/
theorem conversionSlotEnded : Obligations.ConversionSlotEnded := by
  have hexec : ∀ input s, expiryOver s.agenda = true →
      exec (.conversionSlotEnd input) s = actWith (conversionSlotEnd input) s := fun input s hover =>
    congrArg (actWith (conversionSlotEnd input)) (finishExpiry_of_over s hover)
  refine ⟨fun input s hover hslot => ?idle, fun input s ch hover hslot hwf => ?ended⟩
  case idle =>
    rw [hexec input s hover, actWith, conversionSlotEnd_of_none input s.part hslot]
    rfl
  case ended =>
    intro r owner beyond p
    have hr : convert input = r := by
      cases input with
      | none => rfl
      | some x => exact convert_some x
    have howner : comparatorOf ch = owner := comparatorOf_eq ch
    have hbeyond : overcurrent p.orders.ratings.overcurrent r = true ↔ beyond := overcurrent_iff _ r
    refine ⟨comparatorReport ch r p, ?_, fun m hm hb hnew => ?_, fun hlatched => ?_⟩
    · rw [hexec input s hover, actWith, conversionSlotEnd_of_some input s.part ch hslot, hr]
      rfl
    · rw [comparatorReport_of_owned ch r p m (howner.trans hm) (hbeyond.2 hb),
        report_of_new _ p hnew]
      refine ⟨tripEvent_taken _ _ p hwf, (tripEvent_seq_inhibitOne _ m p rfl).trans ?_⟩
      exact inhibitOneOrder_seq_congr m s.part p rfl rfl rfl
    · exact comparatorReport_of_quiet ch r p
        (fun m hm ho => hlatched m (howner.symm.trans hm) (hbeyond.1 ho))

end Sys2Proof.Machine
end

section
/-! The expiry of the control period: slots that have not ended end late, the scan's hand-overs leave the scan
set alone, and a fresh scan starts (R47, R48, R82). -/

namespace Sys2Proof.Machine

/-! ## What a scan's hand-overs leave -/

/-- The work that a scan's hand-overs come to. -/
def Work.ofScan : Work → Bool
  | .scanTo _ | .currentSensorLost _ | .windowEnd _ | .captureBlockWrite _ | .captureComplete _
  | .selftestSettlingEnd | .selftestMeasuringEnd | .selftestEnd | .controlCompute _ | .vibrationGroups => true
  | _ => false

section HandOvers

variable (p : Part)

theorem controlSamples_due_ofScan (m : Motor) : ∀ w ∈ (controlSamples m p).due, w.ofScan = true := by
  intro w hw
  have hkinds : w = .currentSensorLost m ∨ w = .controlCompute m := by
    rw [controlSamples_due] at hw
    simp only [List.mem_append, List.mem_ite_nil_right, List.mem_singleton] at hw
    tauto
  rcases hkinds with rfl | rfl <;> rfl

theorem selftestDue_ofScan (t : Selftest) (window : Nat) :
    ∀ w ∈ selftestDue t window, w.ofScan = true := by
  intro w hw
  unfold selftestDue at hw
  split at hw <;>
  · obtain ⟨_, rfl⟩ := List.mem_ite_nil_right.1 hw |>.imp_right List.mem_singleton.1
    rfl

theorem vibrationScan_due_ofScan : ∀ w ∈ (vibrationScan p).due, w.ofScan = true := by
  intro w hw
  cases htest : p.vib.test with
  | some t =>
    rw [vibrationScan_due_of_test p t htest] at hw
    exact selftestDue_ofScan _ _ w hw
  | none =>
    rw [vibrationScan_due_of_idle p htest] at hw
    rcases List.mem_append.1 hw with hw | hw
    · obtain ⟨c, _, rfl⟩ := List.mem_map.1 hw
      rfl
    · rw [List.mem_singleton.1 hw]
      rfl

theorem captureScan_due_ofScan : ∀ w ∈ (captureScan p).due, w.ofScan = true := by
  intro w hw
  obtain ⟨e, _, rfl⟩ := List.mem_map.1 hw
  rfl

theorem blockScan_due_ofScan (b : ScanBlock) : ∀ w ∈ (blockScan b p).due, w.ofScan = true := by
  cases b with
  | controlA => exact controlSamples_due_ofScan p .a
  | controlB => exact controlSamples_due_ofScan p .b
  | vibration => exact vibrationScan_due_ofScan p
  | capture => exact captureScan_due_ofScan p
  | fastRing => exact fun _ hw => absurd hw List.not_mem_nil

/-- A receiver leaves the acquisition unit alone. -/
theorem blockScan_acq (b : ScanBlock) : (blockScan b p).part.acq = p.acq := by
  cases b with
  | controlA => rfl
  | controlB => rfl
  | vibration => exact vibrationScan_keeps p .acq (by decide)
  | capture => rfl
  | fastRing => rfl

theorem sendFrame_acq (m : Motor) : (sendFrame m p).acq = p.acq := by
  unfold sendFrame
  dsimp only
  split <;> rfl

theorem controlCompute_acq (m : Motor) : (controlCompute m p).acq = p.acq := sendFrame_acq _ m

theorem windowEnd_acq (c : Accel) : (windowEnd c p).acq = p.acq := by
  unfold windowEnd
  dsimp only
  split <;> rfl

theorem groupFormed_acq (g : VibGroup) : (groupFormed p g).acq = p.acq := by
  unfold groupFormed
  dsimp only
  split_ifs
  · rfl
  · exact report_acq _ _
  · rfl

theorem vibrationGroups_acq : (vibrationGroups p).acq = p.acq := by
  have hfold : ∀ (gs : List VibGroup) (q : Part), (gs.foldl groupFormed q).acq = q.acq := by
    intro gs
    induction gs with
    | nil => exact fun _ => rfl
    | cons g gs ih => exact fun q => (ih _).trans (groupFormed_acq q g)
  exact hfold VibGroup.all p

theorem captureComplete_acq (e : EngineId) : (captureComplete e p).acq = p.acq := by
  unfold captureComplete
  dsimp only
  split_ifs <;> simp

theorem selftestSettlingEnd_acq : (selftestSettlingEnd p).acq = p.acq := by
  unfold selftestSettlingEnd
  split <;> rfl

/-- The end of measuring releases the test lines, which the acquisition unit drives (R60). -/
theorem selftestMeasuringEnd_scan : (selftestMeasuringEnd p).acq.scan = p.acq.scan := by
  unfold selftestMeasuringEnd
  split <;> rfl

theorem selftestEnd_acq : (selftestEnd p).acq = p.acq := by
  unfold selftestEnd
  split
  · rfl
  · exact finishSelftest_acq _ _ _

/-- The work of a scan leaves the scan set as it is. -/
theorem runWork_scan (w : Work) (h : w.ofScan = true) : (runWork w p).part.acq.scan = p.acq.scan := by
  cases w with
  | scanTo b => exact congrArg Acquisition.scan (blockScan_acq p b)
  | currentSensorLost m => exact congrArg Acquisition.scan (report_acq _ p)
  | windowEnd c => exact congrArg Acquisition.scan (windowEnd_acq p c)
  | captureBlockWrite e => rfl
  | captureComplete e => exact congrArg Acquisition.scan (captureComplete_acq p e)
  | selftestSettlingEnd => exact congrArg Acquisition.scan (selftestSettlingEnd_acq p)
  | selftestMeasuringEnd => exact selftestMeasuringEnd_scan p
  | selftestEnd => exact congrArg Acquisition.scan (selftestEnd_acq p)
  | controlCompute m => exact congrArg Acquisition.scan (controlCompute_acq p m)
  | vibrationGroups => exact congrArg Acquisition.scan (vibrationGroups_acq p)
  | _ => exact absurd h Bool.false_ne_true

/-- The work of a scan brings about work of the scan alone. -/
theorem runWork_due_ofScan (w : Work) (h : w.ofScan = true) :
    ∀ x ∈ (runWork w p).due, x.ofScan = true := by
  cases w with
  | scanTo b => exact blockScan_due_ofScan p b
  | captureBlockWrite e =>
    intro x hx
    obtain ⟨_, rfl⟩ := List.mem_ite_nil_right.1 hx |>.imp_right List.mem_singleton.1
    rfl
  | currentSensorLost _ | windowEnd _ | captureComplete _ | selftestSettlingEnd | selftestMeasuringEnd
  | selftestEnd | controlCompute _ | vibrationGroups => exact fun _ hx => absurd hx List.not_mem_nil
  | _ => exact absurd h Bool.false_ne_true

end HandOvers

/-- A scan whose results `xs` are still to replace the set, or have replaced it with only the scan's own work
left to do. -/
def ScanSettling (xs : List Sample) (s : State) : Prop :=
  (s.agenda = [.scanComplete] ∧ s.part.acq.converted = xs) ∨
  (s.part.acq.scan = xs ∧ ∀ w ∈ s.agenda, w.ofScan = true)

theorem ScanSettling.runFirst {xs : List Sample} {s : State} (h : ScanSettling xs s) (w : Work)
    (rest : List Work) (ha : s.agenda = w :: rest) : ScanSettling xs (runFirst w rest s) := by
  refine .inr ?_
  rcases h with ⟨hdue, hconverted⟩ | ⟨hscan, hwork⟩
  · obtain ⟨rfl, rfl⟩ : w = .scanComplete ∧ rest = [] := by
      rw [ha] at hdue
      exact List.cons.inj hdue
    refine ⟨hconverted, fun x hx => ?_⟩
    have hx : x ∈ (scanComplete ScanBlock.all s.part).due ++ [] := hx
    rw [List.append_nil] at hx
    obtain ⟨b, _, rfl⟩ := List.mem_map.1 hx
    rfl
  · have hw : w.ofScan = true := hwork w (by simp [ha])
    refine ⟨(runWork_scan s.part w hw).trans hscan, fun x hx => ?_⟩
    rcases List.mem_append.1 hx with hx | hx
    · exact runWork_due_ofScan s.part w hw x hx
    · exact hwork x (by simp [ha, hx])

/-- A completed scan that settles leaves its results as the scan set (R48). -/
theorem settle_scan (s : State) (ha : s.agenda = [.scanComplete]) :
    (settle s).part.acq.scan = s.part.acq.converted := by
  have hsettled : ScanSettling s.part.acq.converted (settle s) :=
    runUntil_keeps (ScanSettling s.part.acq.converted) List.isEmpty
      (fun w rest t hw _ ht => ht.runFirst w rest hw) _ s (.inl ⟨ha, rfl⟩)
  rcases hsettled with ⟨hdue, _⟩ | ⟨hscan, _⟩
  · rw [settle_agenda] at hdue
    cases hdue
  · exact hscan

/-! ## The expiry -/

section Expiry

variable (p : Part)

theorem periodExpiry_acq : (periodExpiry p).part.acq =
    { p.acq with period := p.acq.period % 4 + 1, slot := some 0, converted := [] } := rfl

theorem periodExpiry_scan : (periodExpiry p).part.acq.scan = p.acq.scan := rfl

theorem periodExpiry_link (m : Motor) :
    (periodExpiry p).part.links.get m = (p.links.get m).windowClosed := PerMotor.get_map _ _ m

theorem periodExpiry_keeps : Part.keeps [.acq, .links] p (periodExpiry p).part :=
  ((Part.keeps.refl _ p).setAcq _).setLinks _

theorem periodExpiry_due : (periodExpiry p).due =
    (if (p.links.get .a).window.isSome then [.replyWindowClose .a] else []) ++
      (if (p.links.get .b).window.isSome then [.replyWindowClose .b] else []) ++
      (if p.acq.period % 4 + 1 = 4 then [.supervisionFrame] else []) := by
  simp only [periodExpiry, Motor.all, List.filter_cons, List.filter_nil]
  split_ifs <;> rfl

/-- The period positions run 1, 2, 3, 4, 1 (R47). -/
theorem period_next (n : Nat) : n % 4 + 1 = if n % 4 = 3 then 4 else (n + 1) % 4 := by
  split <;> omega

/-- No window stands open after an expiry (R82). -/
theorem periodExpiry_closed (m : Motor) (w : ReplyWindow)
    (h : ((periodExpiry p).part.links.get m).window = some w) : w.closed = true := by
  rw [periodExpiry_link, Link.windowClosed_window] at h
  obtain ⟨_, _, rfl⟩ := Option.map_eq_some_iff.1 h
  rfl

theorem endSlotsLate_of_none (h : p.acq.slot = none) : endSlotsLate p = .only p := by
  unfold endSlotsLate
  rw [h]

/-- Slots that have not ended by the expiry end with late results (R48, R49). -/
theorem endSlotsLate_of_some (ch : Nat) (h : p.acq.slot = some ch) :
    endSlotsLate p =
      { part := p.setAcq { p.acq with
          converted := p.acq.converted ++
            List.replicate (14 - ch) { value := 0, mark := .invalidLate }
          slot := none }
        due := [.scanComplete] } := by
  unfold endSlotsLate
  rw [h]
  rfl

end Expiry

/-- With nothing due, the expiry ends the slots that have not ended and lets their scan settle first. -/
theorem exec_controlPeriodExpiry (s : State) (hready : s.part.phase = .ready) (ha : s.agenda = []) :
    exec .controlPeriodExpiry s = actWith periodExpiry (settle { s with
      agenda := (endSlotsLate s.part).due, part := (endSlotsLate s.part).part }) := by
  show execControlPeriodExpiry s = _
  rw [execControlPeriodExpiry, if_pos ((isReady_iff s.part).2 hready), settle_of_nil s ha]

/-- Settles O31 (`periodExpiry` is the model's own name): STARTING, a scan that has ended, and slots that end
late. -/
theorem periodExpiry_holds : Obligations.PeriodExpiry := by
  refine ⟨fun s hphase => ?starting, fun s hready ha hslot => ?ended, fun s ch hready ha hslot => ?late⟩
  case starting =>
    exact if_neg (by simp [isReady_eq_false s.part hphase])
  case ended =>
    intro position
    have hposition : s.part.acq.period % 4 + 1 = position := period_next _
    refine ⟨(periodExpiry s.part).part, ?_, ?_, fun m => ⟨fun hw => ?_, fun w hw => ?_⟩,
      periodExpiry_keeps s.part⟩
    · have hsettled : ({ s with agenda := [], part := s.part } : State) = s := by rw [← ha]
      rw [exec_controlPeriodExpiry s hready ha, endSlotsLate_of_none s.part hslot, Effect.only, hsettled,
        settle_of_nil s ha, actWith, periodExpiry_due, hposition, ha, List.append_nil]
    · rw [periodExpiry_acq, hposition]
    · rw [periodExpiry_link, Link.windowClosed, hw, Option.map_none, ← hw]
    · rw [periodExpiry_link, Link.windowClosed, hw, Option.map_some]
  case late =>
    have hexec := exec_controlPeriodExpiry s hready ha
    rw [endSlotsLate_of_some s.part ch hslot] at hexec
    exact ⟨_, hexec, settle_pending _, rfl, rfl, periodExpiry_closed _,
      (periodExpiry_scan _).trans (settle_scan _ rfl)⟩

end Sys2Proof.Machine
end

section
/-! The acquisition unit's frame work: rings, speeds and their validity, the drive speed and the two
cross-checks (R53 to R58). -/

namespace Sys2Proof.Machine

/-! ## One encoder -/

section Frame

variable (e : Encoder) (kspd : Nat) (out : Bool)

/-- The rings drop their oldest entry and take the newest; the pair, the line, the counter and the validity stay
as they are (R53). -/
theorem Encoder.frame_rings : e.frame kspd out = { e with
    snapshots := e.snapshots.drop 1 ++ [e.counter]
    flags := e.flags.drop 1 ++ [e.disturbed || !e.valid], disturbed := !e.valid
    speed := (e.frame kspd out).speed, speedValid := (e.frame kspd out).speedValid
    invalidRun := (e.frame kspd out).invalidRun } := rfl

theorem Encoder.frame_speedValid_iff :
    (e.frame kspd out).speedValid = true ↔ ∀ flag ∈ (e.frame kspd out).flags, flag = false := by
  have hvalid : (e.frame kspd out).speedValid = !(e.frame kspd out).flags.any id := rfl
  rw [hvalid]
  simp

theorem Encoder.frame_speed : (e.frame kspd out).speed =
    if (e.frame kspd out).speedValid then
      saturate (roundedShift 16 ((e.counter - e.snapshots.headD 0#32).toInt * kspd))
    else e.speed := rfl

theorem Encoder.frame_invalidRun : (e.frame kspd out).invalidRun =
    if out || (e.frame kspd out).speedValid then 0 else countUp 255 e.invalidRun := rfl

end Frame

/-! ## The drive speed -/

section DriveSpeed

variable {a b : Encoder} {outA outB : Bool} (last : Int)

theorem formDriveSpeed_both (ha : (!outA && a.speedValid) = true) (hb : (!outB && b.speedValid) = true) :
    formDriveSpeed a b outA outB last = ((a.speed + b.speed).tdiv 2, false) := by
  simp only [formDriveSpeed, ha, hb]

theorem formDriveSpeed_onlyA (ha : (!outA && a.speedValid) = true) (hb : (!outB && b.speedValid) = false) :
    formDriveSpeed a b outA outB last = (a.speed, false) := by
  simp only [formDriveSpeed, ha, hb]

theorem formDriveSpeed_onlyB (ha : (!outA && a.speedValid) = false) (hb : (!outB && b.speedValid) = true) :
    formDriveSpeed a b outA outB last = (b.speed, false) := by
  simp only [formDriveSpeed, ha, hb]

theorem formDriveSpeed_neither (ha : (!outA && a.speedValid) = false)
    (hb : (!outB && b.speedValid) = false) :
    formDriveSpeed a b outA outB last = (last, true) := by
  simp only [formDriveSpeed, ha, hb]

end DriveSpeed

/-! ## The frame -/

section AcquisitionFrame

variable (p : Part)

/-- Motor `m` as the frame finds it: OUT or not. -/
def Part.isOut (m : Motor) : Bool := p.motorState m == .out

theorem Part.isOut_iff (m : Motor) : p.isOut m = true ↔ p.motorState m = .out := beq_iff_eq

/-- The encoder of motor `m` after the frame. -/
def Part.framed (m : Motor) : Encoder := (p.acq.enc.get m).frame p.orders.ratings.kspd (p.isOut m)

/-- Whether the speed of motor `m` counts for the drive (R56). -/
def Part.speedUsed (m : Motor) : Bool := !p.isOut m && (p.framed m).speedValid

theorem Part.speedUsed_iff (m : Motor) :
    p.speedUsed m = true ↔ p.motorState m ≠ .out ∧ (p.framed m).speedValid = true := by
  rw [speedUsed, Bool.and_eq_true, Bool.not_eq_true', ← Bool.not_eq_true, isOut_iff]

/-- Both speeds count for the cross-check of R58. -/
def Part.speedsJudged : Bool :=
  !p.isOut .a && !p.isOut .b && (p.framed .a).speedValid && (p.framed .b).speedValid

theorem Part.speedsJudged_eq : p.speedsJudged = (p.speedUsed .a && p.speedUsed .b) := by
  unfold speedsJudged speedUsed
  cases p.isOut .a <;> cases p.isOut .b <;> simp

/-- The two speeds lie further apart than the tolerance (R58). -/
def Part.speedsApart : Bool :=
  p.speedsJudged &&
    decide (p.settings.mismatchTolerance < (((p.framed .a).speed - (p.framed .b).speed).natAbs : Int))

theorem Part.speedsApart_iff : p.speedsApart = true ↔ p.speedUsed .a = true ∧ p.speedUsed .b = true ∧
    p.settings.mismatchTolerance < (((p.framed .a).speed - (p.framed .b).speed).natAbs : Int) := by
  rw [speedsApart, speedsJudged_eq, Bool.and_eq_true, Bool.and_eq_true, decide_eq_true_iff, and_assoc]

theorem acquisitionFrame_keeps : Part.keeps [.acq] p (acquisitionFrame p).part := (Part.keeps.refl _ p).setAcq _

/-- What the frame leaves of the acquisition unit: the timer, the scan and the test lines. -/
theorem acquisitionFrame_acq :
    let q := (acquisitionFrame p).part
    q.acq = { p.acq with
      enc := q.acq.enc, driveSpeed := q.acq.driveSpeed, driveHeld := q.acq.driveHeld
      overspeedRun := q.acq.overspeedRun, mismatchRun := q.acq.mismatchRun
      mismatchReported := q.acq.mismatchReported, mismatchPresent := q.acq.mismatchPresent
      published := true } := rfl

theorem acquisitionFrame_encoder (m : Motor) :
    (acquisitionFrame p).part.acq.enc.get m = p.framed m := by cases m <;> rfl

theorem acquisitionFrame_drive :
    ((acquisitionFrame p).part.acq.driveSpeed, (acquisitionFrame p).part.acq.driveHeld) =
      formDriveSpeed (p.framed .a) (p.framed .b) (p.isOut .a) (p.isOut .b) p.acq.driveSpeed := rfl

theorem acquisitionFrame_overspeedRun : (acquisitionFrame p).part.acq.overspeedRun =
    if p.settings.overspeedLimit < ((acquisitionFrame p).part.acq.driveSpeed.natAbs : Int) then
      countUp 255 p.acq.overspeedRun else 0 := rfl

theorem acquisitionFrame_mismatchRun : (acquisitionFrame p).part.acq.mismatchRun =
    if p.speedsApart then countUp 255 p.acq.mismatchRun else 0 := rfl

/-- A mismatch is due to be reported (R58). -/
def Part.mismatchDue : Bool :=
  p.speedsApart && decide (p.settings.mismatchPersistence ≤ (acquisitionFrame p).part.acq.mismatchRun) &&
    !p.acq.mismatchReported

theorem Part.mismatchDue_iff : p.mismatchDue = true ↔ p.speedsApart = true ∧
    p.settings.mismatchPersistence ≤ (acquisitionFrame p).part.acq.mismatchRun ∧
    p.acq.mismatchReported = false := by
  simp [mismatchDue, and_assoc]

theorem acquisitionFrame_mismatchReported : (acquisitionFrame p).part.acq.mismatchReported =
    (p.speedsApart && (p.acq.mismatchReported || p.mismatchDue)) := rfl

theorem acquisitionFrame_mismatchReported_iff :
    (acquisitionFrame p).part.acq.mismatchReported = true ↔ p.speedsApart = true ∧
      (p.acq.mismatchReported = true ∨
        p.settings.mismatchPersistence ≤ (acquisitionFrame p).part.acq.mismatchRun) := by
  rw [acquisitionFrame_mismatchReported, Bool.and_eq_true, Bool.or_eq_true, Part.mismatchDue_iff]
  cases p.acq.mismatchReported <;> simp

theorem acquisitionFrame_mismatchPresent : (acquisitionFrame p).part.acq.mismatchPresent =
    if p.speedsJudged then p.speedsApart
    else if p.isOut .a || p.isOut .b then false else p.acq.mismatchPresent := rfl

theorem acquisitionFrame_due : (acquisitionFrame p).due =
    (if (p.framed .a).invalidRun = 8 then [Work.encoderLost .a] else []) ++
      (if (p.framed .b).invalidRun = 8 then [Work.encoderLost .b] else []) ++
      (if (acquisitionFrame p).part.acq.overspeedRun = 4 then [Work.overspeed] else []) ++
      (if p.mismatchDue then [Work.speedMismatch] else []) := rfl

theorem encoderLost_mem_acquisitionFrame (m : Motor) :
    Work.encoderLost m ∈ (acquisitionFrame p).due ↔ (p.framed m).invalidRun = 8 := by
  rw [acquisitionFrame_due]
  cases m <;> simp

theorem overspeed_mem_acquisitionFrame :
    Work.overspeed ∈ (acquisitionFrame p).due ↔ (acquisitionFrame p).part.acq.overspeedRun = 4 := by
  rw [acquisitionFrame_due]
  simp

theorem speedMismatch_mem_acquisitionFrame :
    Work.speedMismatch ∈ (acquisitionFrame p).due ↔ p.mismatchDue = true := by
  rw [acquisitionFrame_due]
  simp

/-! ### The drive speed, by the speeds that count -/

theorem acquisitionFrame_drive_both (ha : p.speedUsed .a = true) (hb : p.speedUsed .b = true) :
    (acquisitionFrame p).part.acq.driveSpeed = ((p.framed .a).speed + (p.framed .b).speed).tdiv 2 ∧
      (acquisitionFrame p).part.acq.driveHeld = false :=
  Prod.mk.inj ((acquisitionFrame_drive p).trans (formDriveSpeed_both _ ha hb))

theorem acquisitionFrame_drive_one (m : Motor) (hm : p.speedUsed m = true)
    (hother : p.speedUsed m.other = false) :
    (acquisitionFrame p).part.acq.driveSpeed = (p.framed m).speed ∧
      (acquisitionFrame p).part.acq.driveHeld = false := by
  cases m with
  | a => exact Prod.mk.inj ((acquisitionFrame_drive p).trans (formDriveSpeed_onlyA _ hm hother))
  | b => exact Prod.mk.inj ((acquisitionFrame_drive p).trans (formDriveSpeed_onlyB _ hother hm))

theorem acquisitionFrame_drive_neither (ha : p.speedUsed .a = false) (hb : p.speedUsed .b = false) :
    (acquisitionFrame p).part.acq.driveSpeed = p.acq.driveSpeed ∧
      (acquisitionFrame p).part.acq.driveHeld = true :=
  Prod.mk.inj ((acquisitionFrame_drive p).trans (formDriveSpeed_neither _ ha hb))

/-! ### The mismatch condition -/

theorem mismatchPresent_of_judged (h : p.speedsJudged = true) :
    (acquisitionFrame p).part.acq.mismatchPresent = p.speedsApart := by
  rw [acquisitionFrame_mismatchPresent, if_pos h]

theorem mismatchPresent_of_out (m : Motor) (h : p.motorState m = .out) :
    (acquisitionFrame p).part.acq.mismatchPresent = false := by
  have hout : p.isOut m = true := (p.isOut_iff m).2 h
  have hjudged : p.speedsJudged = false := by
    unfold Part.speedsJudged
    cases m <;> simp [hout]
  rw [acquisitionFrame_mismatchPresent, hjudged]
  cases m <;> simp [hout]

theorem mismatchPresent_of_unused (m : Motor) (ha : p.motorState .a ≠ .out) (hb : p.motorState .b ≠ .out)
    (h : p.speedUsed m = false) :
    (acquisitionFrame p).part.acq.mismatchPresent = p.acq.mismatchPresent := by
  have hjudged : p.speedsJudged = false := by
    rw [Part.speedsJudged_eq]
    cases m <;> simp [h]
  have hin : ∀ m, p.motorState m ≠ .out → p.isOut m = false := fun m hm =>
    Bool.eq_false_iff.2 (fun ho => hm ((p.isOut_iff m).1 ho))
  rw [acquisitionFrame_mismatchPresent, hjudged, hin .a ha, hin .b hb]
  rfl

end AcquisitionFrame

/-- Settles O57: the encoders, the drive speed, then the two cross-checks. -/
theorem speedsFormed : Obligations.SpeedsFormed := by
  intro p work q speed used apart
  have henc : ∀ m, q.acq.enc.get m = p.framed m := acquisitionFrame_encoder p
  have hspeed : ∀ m, speed m = (p.framed m).speed := fun m => congrArg Encoder.speed (henc m)
  have hused : ∀ m, used m ↔ p.speedUsed m = true := fun m => by
    rw [Part.speedUsed_iff, ← henc]
  have hunused : ∀ m, ¬ used m → p.speedUsed m = false := fun m h =>
    Bool.eq_false_iff.2 (fun hu => h ((hused m).2 hu))
  have hapart : apart ↔ p.speedsApart = true := by
    rw [Part.speedsApart_iff, ← hused, ← hused, ← hspeed, ← hspeed]
  refine ⟨acquisitionFrame_keeps p, acquisitionFrame_acq p, fun m => ?encoder, fun ha hb => ?both,
    fun m hm hother => ?one, fun ha hb => ?neither, ⟨fun h => ?beyond, fun h => ?within⟩,
    overspeed_mem_acquisitionFrame p, fun h => ?apart, fun h => ?together, ?due, ?reported,
    fun ha hb => ?judged, fun h => ?out, fun m ha hb h => ?unused⟩
  case encoder =>
    intro e e'
    have he' : e' = e.frame p.orders.ratings.kspd (p.isOut m) := henc m
    rw [he']
    refine ⟨e.frame_rings _ _, e.frame_speedValid_iff _ _, fun hv => ?_, fun hv => ?_, fun h => ?_,
      fun hv hin => ?_, encoderLost_mem_acquisitionFrame p m⟩
    · rw [Encoder.frame_speed, if_pos hv]
    · rw [Encoder.frame_speed, hv]
      rfl
    · rw [Encoder.frame_invalidRun, if_pos]
      rwa [Bool.or_eq_true, Part.isOut_iff, or_comm]
    · rw [Encoder.frame_invalidRun, if_neg]
      · rfl
      · rw [Bool.or_eq_true, Part.isOut_iff, hv]
        simpa using hin
  case both =>
    rw [hspeed, hspeed]
    exact acquisitionFrame_drive_both p ((hused .a).1 ha) ((hused .b).1 hb)
  case one =>
    rw [hspeed]
    exact acquisitionFrame_drive_one p m ((hused m).1 hm) (hunused _ hother)
  case neither => exact acquisitionFrame_drive_neither p (hunused _ ha) (hunused _ hb)
  case beyond => exact (acquisitionFrame_overspeedRun p).trans (if_pos h)
  case within => exact (acquisitionFrame_overspeedRun p).trans (if_neg (not_lt.2 h))
  case apart => exact (acquisitionFrame_mismatchRun p).trans (if_pos (hapart.1 h))
  case together => exact (acquisitionFrame_mismatchRun p).trans (if_neg (fun ha => h (hapart.2 ha)))
  case due =>
    exact (speedMismatch_mem_acquisitionFrame p).trans
      (p.mismatchDue_iff.trans (and_congr_left' hapart.symm))
  case reported =>
    exact (acquisitionFrame_mismatchReported_iff p).trans (and_congr_left' hapart.symm)
  case judged =>
    have hjudged : p.speedsJudged = true := by
      rw [Part.speedsJudged_eq, (hused .a).1 ha, (hused .b).1 hb]
      rfl
    exact (Bool.coe_iff_coe.2 (mismatchPresent_of_judged p hjudged)).trans hapart.symm
  case out =>
    rcases h with h | h
    · exact mismatchPresent_of_out p .a h
    · exact mismatchPresent_of_out p .b h
  case unused => exact mismatchPresent_of_unused p m ha hb (hunused m h)

end Sys2Proof.Machine
end

section
/-! The regulator of current control: its PI terms, the voltage limit with the d axis first, and the anti-windup
of its two integrators (R74 to R78). -/

namespace Sys2Proof.Machine

/-! ## Held values and the floor root -/

theorem abs_clampTo_le {b : Int} (hb : 0 ≤ b) (x : Int) : |clampTo (-b) b x| ≤ b := by
  unfold clampTo
  exact abs_le.2 ⟨le_max_left _ _, max_le (by omega) (min_le_left _ _)⟩

theorem clampTo_mul_self_le {b : Int} (hb : 0 ≤ b) (x : Int) :
    clampTo (-b) b x * clampTo (-b) b x ≤ b * b :=
  abs_le_iff_mul_self_le.1 ((abs_clampTo_le hb x).trans (le_abs_self b))

/-- The root of `n` is twice the root of `n / 4`, or one more: one binary digit for each digit in base 4. -/
theorem isqrtFuel_bounds (fuel : Nat) {n : Nat} (hn : n ≤ fuel) :
    isqrtFuel fuel n * isqrtFuel fuel n ≤ n ∧ n < (isqrtFuel fuel n + 1) * (isqrtFuel fuel n + 1) := by
  induction fuel generalizing n with
  | zero =>
    obtain rfl : n = 0 := by omega
    exact ⟨le_rfl, Nat.one_pos⟩
  | succ k ih =>
    rw [isqrtFuel]
    split
    next hzero => simp [hzero]
    next hpos =>
      obtain ⟨hle, hlt⟩ := ih (n := n / 4) (by omega)
      generalize isqrtFuel k (n / 4) = m at hle hlt
      have hlower : 2 * m * (2 * m) ≤ n := by
        rw [mul_mul_mul_comm]
        omega
      have hupper : n < (2 * m + 1 + 1) * (2 * m + 1 + 1) := by
        rw [show 2 * m + 1 + 1 = 2 * (m + 1) by omega, mul_mul_mul_comm]
        omega
      dsimp only
      split
      next hodd => exact ⟨hodd, hupper⟩
      next heven => exact ⟨hlower, not_le.1 heven⟩

/-- isqrt is the floor root (spec 00). -/
theorem isqrt_bounds (n : Nat) : isqrt n * isqrt n ≤ n ∧ n < (isqrt n + 1) * (isqrt n + 1) :=
  isqrtFuel_bounds n le_rfl

/-- The floor root of a whole number that is not negative, taken as the model takes it. -/
theorem isqrt_toNat_bounds {x : Int} (hx : 0 ≤ x) :
    (isqrt x.toNat : Int) * isqrt x.toNat ≤ x ∧ x < (isqrt x.toNat + 1 : Int) * (isqrt x.toNat + 1) := by
  obtain ⟨hle, hlt⟩ := isqrt_bounds x.toNat
  rw [← Int.toNat_of_nonneg hx, Int.toNat_natCast]
  exact_mod_cast And.intro hle hlt

/-! ## The bound, the candidates and the sums -/

theorem voltageBound_nonneg (vlim : Nat) (udc : Int) : 0 ≤ voltageBound vlim udc := by
  have hproduct : 0 ≤ (vlim : Int) * max 0 udc := mul_nonneg (Int.natCast_nonneg _) (le_max_left _ _)
  unfold voltageBound roundedShift
  exact Int.ediv_nonneg (by omega) (by omega)

theorem natAbs_candidateIntegrator_le (ki : Nat) (e i : Int) {vmax : Int} (hv : 0 ≤ vmax) :
    ((candidateIntegrator ki e i vmax).natAbs : Int) ≤ vmax := by
  rw [Int.natCast_natAbs]
  exact abs_clampTo_le hv _

section Regulator

variable (i : RegulatorInputs) (integD integQ : Int)

/-- The voltage bound of the period (R74). -/
def RegulatorInputs.vmax : Int := voltageBound i.vlim i.udc

/-- The candidate integrator of the d axis (R75). -/
def RegulatorInputs.candD : Int := candidateIntegrator i.ki (saturate (i.idRef - i.id)) integD i.vmax

/-- The candidate integrator of the q axis (R75). -/
def RegulatorInputs.candQ : Int := candidateIntegrator i.ki (saturate (i.iqRef - i.iq)) integQ i.vmax

/-- The d axis before its limit (R75). -/
def RegulatorInputs.sumD : Int :=
  saturate (roundedShift 12 (i.kp * saturate (i.idRef - i.id)) + i.candD integD)

/-- The q axis, with the back-EMF term, before its limit (R75, R76). -/
def RegulatorInputs.sumQ : Int :=
  saturate (roundedShift 12 (i.kp * saturate (i.iqRef - i.iq)) + i.candQ integQ +
    saturate (roundedShift 12 (i.speed * i.kemf)))

/-- What the d voltage leaves to the q axis (R77). -/
def RegulatorInputs.left : Int :=
  isqrt (i.vmax * i.vmax - (regulate i integD integQ).vd * (regulate i integD integQ).vd).toNat

/-- Whether an axis counts as clamped (R78). -/
def axisFlagged (vmax v u : Int) : Bool := vmax = 0 ∨ v ≠ u

theorem axisFlagged_iff (vmax v u : Int) : axisFlagged vmax v u = true ↔ vmax = 0 ∨ v ≠ u :=
  decide_eq_true_iff

/-- The word that holds the flags of the two axes (R78). -/
def flagWord (d q : Bool) : Nat := (if d then 1 else 0) + (if q then 2 else 0)

theorem flagWord_le (d q : Bool) : flagWord d q ≤ 3 := by
  cases d <;> cases q <;> decide

theorem flagWord_mod_two (d q : Bool) : flagWord d q % 2 = 1 ↔ d = true := by
  cases d <;> cases q <;> decide

theorem flagWord_div_two (d q : Bool) : flagWord d q / 2 = 1 ↔ q = true := by
  cases d <;> cases q <;> decide

theorem RegulatorInputs.vmax_nonneg : 0 ≤ i.vmax := voltageBound_nonneg _ _

/-! ## What each output is -/

theorem regulate_vd : (regulate i integD integQ).vd = clampTo (-i.vmax) i.vmax (i.sumD integD) := rfl

theorem regulate_vq : (regulate i integD integQ).vq =
    clampTo (-i.left integD integQ) (i.left integD integQ) (i.sumQ integQ) := rfl

theorem regulate_integD : (regulate i integD integQ).integD =
    if axisFlagged i.vmax (regulate i integD integQ).vd (i.sumD integD) then integD
    else i.candD integD := rfl

theorem regulate_integQ : (regulate i integD integQ).integQ =
    if axisFlagged i.vmax (regulate i integD integQ).vq (i.sumQ integQ) then integQ
    else i.candQ integQ := rfl

theorem regulate_limited : (regulate i integD integQ).limited =
    flagWord (axisFlagged i.vmax (regulate i integD integQ).vd (i.sumD integD))
      (axisFlagged i.vmax (regulate i integD integQ).vq (i.sumQ integQ)) := rfl

/-! ## The voltage limit (R77) -/

theorem natAbs_regulate_vd_le : ((regulate i integD integQ).vd.natAbs : Int) ≤ i.vmax := by
  rw [Int.natCast_natAbs, regulate_vd]
  exact abs_clampTo_le i.vmax_nonneg _

/-- The d voltage uses no more than the whole of Vmax squared, so the root left to the q axis is a true one. -/
theorem RegulatorInputs.left_bounds :
    let rest := i.vmax * i.vmax - (regulate i integD integQ).vd * (regulate i integD integQ).vd
    i.left integD integQ * i.left integD integQ ≤ rest ∧
      rest < (i.left integD integQ + 1) * (i.left integD integQ + 1) :=
  isqrt_toNat_bounds (sub_nonneg.2 (clampTo_mul_self_le i.vmax_nonneg (i.sumD integD)))

theorem RegulatorInputs.left_nonneg : 0 ≤ i.left integD integQ := Int.natCast_nonneg _

theorem regulate_within_circle :
    (regulate i integD integQ).vd * (regulate i integD integQ).vd +
      (regulate i integD integQ).vq * (regulate i integD integQ).vq ≤ i.vmax * i.vmax := by
  have hvq : (regulate i integD integQ).vq * (regulate i integD integQ).vq ≤
      i.left integD integQ * i.left integD integQ :=
    clampTo_mul_self_le (i.left_nonneg integD integQ) _
  have hleft := (i.left_bounds integD integQ).1
  omega

theorem regulate_voltages_zero (hzero : i.vmax = 0) :
    (regulate i integD integQ).vd = 0 ∧ (regulate i integD integQ).vq = 0 := by
  have hcircle := regulate_within_circle i integD integQ
  rw [hzero, mul_zero] at hcircle
  exact mul_self_add_mul_self_eq_zero.1
    (le_antisymm hcircle (add_nonneg (mul_self_nonneg _) (mul_self_nonneg _)))

/-! ## The flags and the anti-windup (R78) -/

theorem regulate_limited_le : (regulate i integD integQ).limited ≤ 3 := by
  rw [regulate_limited]
  exact flagWord_le _ _

theorem regulate_limited_d : (regulate i integD integQ).limited % 2 = 1 ↔
    axisFlagged i.vmax (regulate i integD integQ).vd (i.sumD integD) = true := by
  rw [regulate_limited]
  exact flagWord_mod_two _ _

theorem regulate_limited_q : (regulate i integD integQ).limited / 2 = 1 ↔
    axisFlagged i.vmax (regulate i integD integQ).vq (i.sumQ integQ) = true := by
  rw [regulate_limited]
  exact flagWord_div_two _ _

theorem regulate_integD_of_flagged (h : (regulate i integD integQ).limited % 2 = 1) :
    (regulate i integD integQ).integD = integD :=
  (regulate_integD i integD integQ).trans (if_pos ((regulate_limited_d i integD integQ).1 h))

theorem regulate_integD_of_free (h : (regulate i integD integQ).limited % 2 = 0) :
    (regulate i integD integQ).integD = i.candD integD :=
  (regulate_integD i integD integQ).trans
    (if_neg (mt (regulate_limited_d i integD integQ).2 (by omega)))

theorem regulate_integQ_of_flagged (h : (regulate i integD integQ).limited / 2 = 1) :
    (regulate i integD integQ).integQ = integQ :=
  (regulate_integQ i integD integQ).trans (if_pos ((regulate_limited_q i integD integQ).1 h))

theorem regulate_integQ_of_free (h : (regulate i integD integQ).limited / 2 = 0) :
    (regulate i integD integQ).integQ = i.candQ integQ :=
  (regulate_integQ i integD integQ).trans
    (if_neg (mt (regulate_limited_q i integD integQ).2 (by omega)))

theorem regulate_limited_of_vmax_zero (hzero : i.vmax = 0) : (regulate i integD integQ).limited = 3 := by
  have hd := (regulate_limited_d i integD integQ).2 ((axisFlagged_iff _ _ _).2 (.inl hzero))
  have hq := (regulate_limited_q i integD integQ).2 ((axisFlagged_iff _ _ _).2 (.inl hzero))
  omega

end Regulator

/-- Settles O42, by the equation of each output: the voltages lie in the circle because each is clamped to what is
left of it, and each integrator follows its axis's flag. -/
theorem regulatorWithinVoltage : Obligations.RegulatorWithinVoltage := by
  unfold Obligations.RegulatorWithinVoltage
  intro i integD integQ r vmax ed eq candD candQ ud uq
  obtain ⟨hroot, hnext⟩ := i.left_bounds integD integQ
  have hvmax : 0 ≤ vmax := i.vmax_nonneg
  have hcandD : (candD.natAbs : Int) ≤ vmax := natAbs_candidateIntegrator_le i.ki ed integD hvmax
  have hcandQ : (candQ.natAbs : Int) ≤ vmax := natAbs_candidateIntegrator_le i.ki eq integQ hvmax
  have hfreeD : r.limited % 2 = 0 → r.integD = candD := regulate_integD_of_free i integD integQ
  have hfreeQ : r.limited / 2 = 0 → r.integQ = candQ := regulate_integQ_of_free i integD integQ
  have hzero : vmax = 0 → r.vd = 0 ∧ r.vq = 0 ∧ r.limited = 3 := fun h =>
    have ⟨hvd, hvq⟩ := regulate_voltages_zero i integD integQ h
    ⟨hvd, hvq, regulate_limited_of_vmax_zero i integD integQ h⟩
  exact ⟨regulate_vd i integD integQ,
    ⟨i.left integD integQ, i.left_nonneg integD integQ, hroot, hnext, regulate_vq i integD integQ⟩,
    (regulate_limited_d i integD integQ).trans (axisFlagged_iff _ _ _),
    (regulate_limited_q i integD integQ).trans (axisFlagged_iff _ _ _),
    hfreeD, hfreeQ, hvmax, natAbs_regulate_vd_le i integD integQ, regulate_within_circle i integD integQ,
    regulate_limited_le i integD integQ,
    fun h => (hfreeD h).symm ▸ hcandD, regulate_integD_of_flagged i integD integQ,
    fun h => (hfreeQ h).symm ▸ hcandQ, regulate_integQ_of_flagged i integD integQ,
    hzero⟩

end Sys2Proof.Machine
end

section
/-! The INHIBIT lines, and replies that come into a window (R82, R85, R91). -/

namespace Sys2Proof.Machine

/-! ## The INHIBIT lines -/

theorem MotorState.energized_iff (x : MotorState) :
    x.energized = true ↔ x = .magnetizing ∨ x = .running ∨ x = .stopping := by
  cases x <;> decide

theorem MotorState.energized_eq_false_iff (x : MotorState) :
    x.energized = false ↔ x = .stopped ∨ x = .tripped ∨ x = .out := by
  cases x <;> decide

theorem inhibitLatched_iff (ls : List Latched) (m : Motor) :
    inhibitLatched ls m = true ↔
      ∃ x ∈ ls, x.cls = .inhibitAll ∨ (x.cls = .inhibitOne ∧ x.cause.owner = some m) := by
  simp [inhibitLatched]

/-- The line by the three conditions of R91, in the order in which the model reads them. -/
theorem inhibitLine_eq (p : Part) (m : Motor) :
    inhibitLine p m = (!p.isReady || !(p.motorState m).energized || inhibitLatched p.trip.latched m) := by
  unfold inhibitLine Part.isReady
  cases p.phase <;> rfl

/-- Settles O53: each disjunct of the line is one of the conditions. -/
theorem inhibitLines : Obligations.InhibitLines := by
  intro p m
  have hreset : (!p.isReady) = true ↔ p.phase ≠ .ready := by
    rw [Bool.not_eq_true', Bool.eq_false_iff, ne_eq, isReady_iff]
  have hrest : (!(p.motorState m).energized) = true ↔
      p.motorState m = .stopped ∨ p.motorState m = .tripped ∨ p.motorState m = .out := by
    rw [Bool.not_eq_true', MotorState.energized_eq_false_iff]
  have hlatched : inhibitLatched p.trip.latched m = true ↔ ∃ x ∈ p.trip.latched,
      (x.cls = .inhibitOne ∧ x.cause.owner = some m) ∨ x.cls = .inhibitAll := by
    simp only [inhibitLatched_iff, or_comm]
  rw [inhibitLine_eq, Bool.or_eq_true, Bool.or_eq_true, hreset, hrest, hlatched]
  exact (or_assoc.trans or_comm).trans or_assoc

/-! ## Replies -/

/-- A window with one more reply in it (R85). -/
def ReplyWindow.withReply (w : ReplyWindow) (words : List Word) : ReplyWindow :=
  if w.first = none then { w with first := some words } else { w with further := true }

theorem replyReceived_of_none (m : Motor) (words : List Word) (p : Part)
    (h : (p.links.get m).window = none) : replyReceived m words p = p := by
  simp only [replyReceived, h]

theorem replyReceived_of_open (m : Motor) (words : List Word) (p : Part) (w : ReplyWindow)
    (h : (p.links.get m).window = some w) (hopen : w.closed = false) :
    replyReceived m words p = p.setLink m { p.links.get m with window := some (w.withReply words) } := by
  simp only [replyReceived, h, hopen, ReplyWindow.withReply]
  cases hfirst : w.first <;> rfl

/-- Settles O38: the reply acts at once, by the window that it finds. -/
theorem replyIntoWindow : Obligations.ReplyIntoWindow := by
  intro m words s l
  have hexec : exec (.replyReceived m words) s = .next { s with part := replyReceived m words s.part } := rfl
  rw [hexec]
  refine ⟨fun h => ?_, fun w h hclosed => ?_, fun w h hopen => ?_⟩
  · rw [replyReceived_of_none m words s.part h]
  · rw [replyReceived_of_closed m words s.part w h hclosed]
  · rw [replyReceived_of_open m words s.part w h hopen]
    rfl

end Sys2Proof.Machine
end

section
/-! LINK_UP and LINK_LOST, and the reports that a link makes unless its motor is OUT (R87 to R89). -/

namespace Sys2Proof.Machine

/-! ## A link's report -/

/-- A cause reported unless motor `m` is OUT (R88, R89). -/
def reportUnlessOut (m : Motor) (c : Cause) (p : Part) : Part :=
  if p.motorState m = .out then p else report c p

/-- The report of a cause of class INHIBIT_ONE that belongs to motor `m`: a trip event, or nothing. -/
theorem reportUnlessOut_spec (m : Motor) (c : Cause) (p : Part) (howner : c.owner = some m)
    (hcls : p.settings.classOf c = .inhibitOne) (hwf : Memory.wf p.exch.mem = true) :
    if p.motorState m ≠ .out ∧ isLatched p.trip.latched c = false then
      TripTaken c .inhibitOne p (reportUnlessOut m c p) ∧
        (reportUnlessOut m c p).seq = (inhibitOneOrder m p).seq
    else reportUnlessOut m c p = p := by
  by_cases hout : p.motorState m = .out
  · rw [if_neg (fun h => h.1 hout), reportUnlessOut, if_pos hout]
  · rw [reportUnlessOut, if_neg hout]
    by_cases hlatched : isLatched p.trip.latched c = true
    · rw [if_neg (by simp [hlatched]), report_of_latched c p hlatched]
    · have hnew : isLatched p.trip.latched c = false := by simpa using hlatched
      rw [if_pos ⟨hout, hnew⟩, report_of_new c p hnew, hcls]
      exact ⟨tripEvent_taken c _ p hwf, tripEvent_seq_inhibitOne c m p howner⟩

theorem reportUnlessOut_preserves (m : Motor) (c : Cause) (p : Part) :
    p.Preserves (reportUnlessOut m c p) := .ite _ (.refl p) (report_preserves c (.refl p))

@[simp] theorem reportUnlessOut_links (m : Motor) (c : Cause) (p : Part) :
    (reportUnlessOut m c p).links = p.links := by
  unfold reportUnlessOut
  split
  · rfl
  · exact report_links c p

@[simp] theorem reportUnlessOut_acq (m : Motor) (c : Cause) (p : Part) :
    (reportUnlessOut m c p).acq = p.acq := by
  unfold reportUnlessOut
  split
  · rfl
  · exact report_acq c p

/-! ## LINK_UP and LINK_LOST -/

/-- Link `m` in a new state, with LINK raised (R87, R88). -/
def linkMoved (m : Motor) (l : Link) (p : Part) : Part := raiseSource .link (p.setLink m l)

theorem linkMoved_keeps (m : Motor) (l : Link) (p : Part) :
    Part.keeps [.attn, .links] p (linkMoved m l p) := ((Part.keeps.refl _ p).setLinks _).raise .link

theorem linkMoved_raises (m : Motor) (l : Link) (p : Part) : Part.raisesOnly [.link] p (linkMoved m l p) :=
  raisesOnly_raiseSource .link (p.setLink m l)

theorem linkUp_eq (m : Motor) (p : Part) :
    linkUp m p = linkMoved m { p.links.get m with state := .up, lossCount := 0 } p := rfl

/-- The link of motor `m` LOST, with its loss count kept (R88). -/
def linkMarkedLost (m : Motor) (p : Part) : Part := linkMoved m { p.links.get m with state := .lost } p

theorem linkLost_eq (m : Motor) (p : Part) :
    linkLost m p = reportUnlessOut m (.linkLost m) (linkMarkedLost m p) := rfl

/-- Settles O40: both replace the link and raise LINK; LINK_LOST then makes its report. -/
theorem linkUpAndLost : Obligations.LinkUpAndLost := by
  intro m s rest hwf
  refine ⟨fun ha => ?up, fun ha => ?lost⟩
  case up =>
    refine ⟨linkUp m s.part, occurWith_head _ _ s rest rfl ha, ?_⟩
    rw [linkUp_eq]
    exact ⟨rfl, linkMoved_raises m _ s.part, linkMoved_keeps m _ s.part⟩
  case lost =>
    refine ⟨linkMarkedLost m s.part, linkLost m s.part, occurWith_head _ _ s rest rfl ha, rfl,
      linkMoved_raises m _ s.part, linkMoved_keeps m _ s.part, ?_⟩
    rw [linkLost_eq, ← inhibitOneOrder_seq_congr m s.part (linkMarkedLost m s.part) rfl rfl rfl]
    exact reportUnlessOut_spec m (.linkLost m) (linkMarkedLost m s.part) rfl rfl hwf

end Sys2Proof.Machine
end

section
/-! REPLY_WINDOW_CLOSE: the judgement of a window, and what it makes of the link, the cause and the test
(R85 to R92). -/

namespace Sys2Proof.Machine

/-! ## The judgement (R85) -/

/-- What R85 asks of a window for its reply to be a good one that carries these values. -/
def ReplyWindow.Good (w : ReplyWindow) (st : InverterStatus) (code : Nat) (flag : Bool) : Prop :=
  ∃ word check,
    w.first = some [word, check] ∧ w.further = false ∧ check = checkWord [word] ∧
    (word.extractLsb' 0 4).toNat = w.sequence ∧ word.getLsbD 7 = false ∧
    word.getLsbD 6 = flag ∧ (flag = true → w.test = true) ∧
    (word.extractLsb' 4 2).toNat = st.code ∧ (word.extractLsb' 8 8).toNat = code

theorem replyStatus_eq_some_iff (word : Word) (st : InverterStatus) :
    replyStatus word = some st ↔ (word.extractLsb' 4 2).toNat = st.code := by
  unfold replyStatus
  split
  · next h => rw [h]; cases st <;> decide
  · next h => rw [h]; cases st <;> decide
  · next h => rw [h]; cases st <;> decide
  · next h0 h1 h2 =>
    cases st with
    | ready => exact iff_of_false nofun h0
    | notReady => exact iff_of_false nofun h1
    | fault => exact iff_of_false nofun h2

/-- A reply of two words is judged by its fields. -/
theorem judgeReply_of_two (w : ReplyWindow) (word check : Word) (h : w.first = some [word, check])
    (st : InverterStatus) (code : Nat) (flag : Bool) :
    judgeReply w = .good st code flag ↔
      replyStatus word = some st ∧
      (check = checkWord [word] ∧ (word.extractLsb' 0 4).toNat = w.sequence ∧ word.getLsbD 7 = false ∧
        (word.getLsbD 6 = false ∨ w.test = true) ∧ w.further = false) ∧
      (word.extractLsb' 8 8).toNat = code ∧ word.getLsbD 6 = flag := by
  simp only [judgeReply, h]
  cases hstatus : replyStatus word with
  | none => simp
  | some status =>
    dsimp only
    split
    · next hfields =>
      rw [ReplyOutcome.good.injEq, Option.some.injEq]
      exact ⟨fun ⟨hst, hvalues⟩ => ⟨hst, hfields, hvalues⟩, fun ⟨hst, _, hvalues⟩ => ⟨hst, hvalues⟩⟩
    · next hfields => simp only [reduceCtorEq, hfields, false_and, and_false]

theorem judgeReply_eq_good_iff (w : ReplyWindow) (st : InverterStatus) (code : Nat) (flag : Bool) :
    judgeReply w = .good st code flag ↔ w.Good st code flag := by
  constructor
  · intro hjudged
    rcases hfirst : w.first with _ | (_ | ⟨word, _ | ⟨check, _ | _⟩⟩)
    case some.cons.cons.nil =>
      obtain ⟨hstatus, ⟨hcheck, hseq, hbit, hflag, hone⟩, hcode, rfl⟩ :=
        (judgeReply_of_two w word check hfirst st code flag).1 hjudged
      refine ⟨word, check, hfirst, hone, hcheck, hseq, hbit, rfl, fun ht => ?_,
        (replyStatus_eq_some_iff word st).1 hstatus, hcode⟩
      exact hflag.resolve_left (by simp [ht])
    all_goals simp [judgeReply, hfirst] at hjudged
  · rintro ⟨word, check, hfirst, hone, hcheck, hseq, hbit, rfl, htest, hstatus, hcode⟩
    refine (judgeReply_of_two w word check hfirst st code _).2 ⟨(replyStatus_eq_some_iff word st).2 hstatus,
      ⟨hcheck, hseq, hbit, ?_, hone⟩, hcode, rfl⟩
    cases hbit6 : word.getLsbD 6 with
    | false => exact .inl rfl
    | true => exact .inr (htest hbit6)

theorem ReplyOutcome.isGood_eq_false_iff (o : ReplyOutcome) :
    o.isGood = false ↔ ∀ st code flag, o ≠ .good st code flag := by
  cases o <;> simp [isGood]

theorem ReplyOutcome.good_or_not (o : ReplyOutcome) :
    (∃ st code flag, o = .good st code flag) ∨ o.isGood = false := by
  cases o with
  | good st code flag => exact .inl ⟨st, code, flag, rfl⟩
  | bad => exact .inr rfl
  | missing => exact .inr rfl

theorem ReplyOutcome.bad_or_missing {o : ReplyOutcome} (h : o.isGood = false) : o = .bad ∨ o = .missing := by
  cases o with
  | good => cases h
  | bad => exact .inl rfl
  | missing => exact .inr rfl

/-! ## The link after a judgement (R86 to R88, R90) -/

namespace Link

variable (l : Link) {o : ReplyOutcome}

theorem judged_good (st : InverterStatus) (code : Nat) (flag : Bool) :
    l.judged (.good st code flag) = { l with
      window := none, status := st, faultCode := code
      syncRun := if l.state = .syncing then if st = .ready then min 16 (l.syncRun + 1) else 0 else l.syncRun
      lossCount := if l.state = .up then 0 else l.lossCount } := by
  unfold judged
  cases hstate : l.state <;> cases st <;> rfl

theorem judged_of_not_good (h : o.isGood = false) :
    l.judged o = { l with
      window := none
      syncRun := if l.state = .syncing then 0 else l.syncRun
      lossCount := if l.state = .up then min 8 (l.lossCount + 1) else l.lossCount } := by
  unfold judged
  obtain rfl | rfl := ReplyOutcome.bad_or_missing h <;> cases hstate : l.state <;> rfl

/-- A judgement closes the window and touches the held reply and the two counts alone. -/
theorem judged_frame (o : ReplyOutcome) :
    l.judged o = { l with
      window := none, status := (l.judged o).status, faultCode := (l.judged o).faultCode
      syncRun := (l.judged o).syncRun, lossCount := (l.judged o).lossCount } := by
  obtain ⟨st, code, flag, rfl⟩ | ho := o.good_or_not
  · rw [judged_good]
  · rw [judged_of_not_good l ho]

theorem judged_syncRun_kept (h : l.state ≠ .syncing) (o : ReplyOutcome) :
    (l.judged o).syncRun = l.syncRun := by
  obtain ⟨st, code, flag, rfl⟩ | ho := o.good_or_not
  · rw [judged_good]
    exact if_neg h
  · rw [judged_of_not_good l ho]
    exact if_neg h

theorem judged_lossCount_kept (h : l.state ≠ .up) (o : ReplyOutcome) :
    (l.judged o).lossCount = l.lossCount := by
  obtain ⟨st, code, flag, rfl⟩ | ho := o.good_or_not
  · rw [judged_good]
    exact if_neg h
  · rw [judged_of_not_good l ho]
    exact if_neg h

/-- The row that a judgement brings about on the link of motor `m` (R87, R88). -/
def closeDue (m : Motor) (tolerance : Nat) (o : ReplyOutcome) : List Work :=
  match l.state with
  | .syncing => if (l.judged o).syncRun = 16 then [.linkUp m] else []
  | .up => if !o.isGood && decide (tolerance ≤ (l.judged o).lossCount) then [.linkLost m] else []
  | .down | .lost => []

variable (m : Motor) (tolerance : Nat)

theorem closeDue_syncing (h : l.state = .syncing) (o : ReplyOutcome) :
    l.closeDue m tolerance o = if (l.judged o).syncRun = 16 then [.linkUp m] else [] := by
  simp only [closeDue, h]

theorem closeDue_up_good (h : l.state = .up) (st : InverterStatus) (code : Nat) (flag : Bool) :
    l.closeDue m tolerance (.good st code flag) = [] := by
  simp only [closeDue, h]
  rfl

theorem closeDue_up_of_not_good (h : l.state = .up) (ho : o.isGood = false) :
    l.closeDue m tolerance o = if tolerance ≤ (l.judged o).lossCount then [.linkLost m] else [] := by
  simp [closeDue, h, ho]

theorem closeDue_quiet (h : l.state = .down ∨ l.state = .lost) (o : ReplyOutcome) :
    l.closeDue m tolerance o = [] := by
  obtain h | h := h <;> simp only [closeDue, h]

end Link

/-! ## The report and the test (R89, R92) -/

/-- Whether a judgement on a link in this state is a fault to report (R89). -/
def ReplyOutcome.faults (o : ReplyOutcome) (state : LinkState) : Bool :=
  match state, o with
  | .up, .good .fault _ _ => true
  | _, _ => false

theorem ReplyOutcome.faults_iff (o : ReplyOutcome) (state : LinkState) :
    o.faults state = true ↔ state = .up ∧ ∃ code flag, o = .good .fault code flag := by
  unfold faults
  split
  · simp
  · next h => simpa using fun hs code flag ho => h code flag hs ho

/-- The completion code of a LINK_TEST by the judgement of its frame (R27). -/
def ReplyOutcome.testCode : ReplyOutcome → ResultCode
  | .good _ _ true => .pass
  | .good _ _ false | .bad | .missing => .fail

/-- The result values of a LINK_TEST by the judgement of its frame (R27). -/
def ReplyOutcome.testValues : ReplyOutcome → List Word
  | .good st code flag => [if flag then 0#16 else 1#16, wordOfNat st.code, wordOfNat code]
  | .bad | .missing => [2#16]

theorem ReplyOutcome.testCode_of_not_good {o : ReplyOutcome} (h : o.isGood = false) : o.testCode = .fail := by
  obtain rfl | rfl := ReplyOutcome.bad_or_missing h <;> rfl

theorem ReplyOutcome.testValues_of_not_good {o : ReplyOutcome} (h : o.isGood = false) :
    o.testValues = [2#16] := by
  obtain rfl | rfl := ReplyOutcome.bad_or_missing h <;> rfl

theorem finishTest_eq (m : Motor) (o : ReplyOutcome) (p : Part) :
    finishTest m o p = finishLinkTest m o.testCode o.testValues p := by
  rcases o with ⟨st, code, _ | _⟩ | _ | _ <;> rfl

theorem report_entries (c : Cause) (p : Part) :
    (report c p).orders =
      { p.orders with stop := (report c p).orders.stop, run := (report c p).orders.run } := by
  cases hlatched : isLatched p.trip.latched c with
  | true => rw [report_of_latched c p hlatched]
  | false =>
    have hentries := (tripEvent_entries c (p.settings.classOf c) p).1
    rw [report_of_new c p hlatched, hentries]

theorem finishLinkTest_of_none (m : Motor) (code : ResultCode) (values : List Word) (p : Part)
    (h : p.orders.linkTest.get m = none) : finishLinkTest m code values p = p := by
  simp only [finishLinkTest, h]

/-- The end of a LINK_TEST in flight, on its cell and on ORDER. -/
theorem finishLinkTest_spec (m : Motor) (code : ResultCode) (values : List Word) (p : Part)
    (hwf : Memory.wf p.exch.mem = true) (k : CellId) (hk : p.orders.linkTest.get m = some k) :
    Part.raisesOnly [.order] p (finishLinkTest m code values p) ∧
    Part.storesOnly (cellAnswerByte k) p (finishLinkTest m code values p) ∧
    CellFinished k code values p (finishLinkTest m code values p) := by
  have hq : finishLinkTest m code values p =
      finishCell k code values (p.setOrders { p.orders with linkTest := p.orders.linkTest.set m none }) := by
    simp only [finishLinkTest, hk]
  have hwrites := (Part.Writes.refl (cellAnswerByte k) p).setOrders
    { p.orders with linkTest := p.orders.linkTest.set m none }
  rw [hq]
  exact ⟨(Part.RaisesOrderAtMost.of_attn rfl).raisesOnly_finish k code values,
    (hwrites.finish k code values (fun _ => cellResultByte.answer)).storesOnly hwf,
    hwrites.finishedNow hwf k code values⟩

section Close

variable (m : Motor) (o : ReplyOutcome) (p : Part)

/-- The link of motor `m` after the judgement `o`. -/
def linkJudged : Part := p.setLink m ((p.links.get m).judged o)

/-- Then the report of a fault (R89). -/
def faultReported : Part :=
  if o.faults (p.links.get m).state then reportUnlessOut m (.inverterFault m) (linkJudged m o p)
  else linkJudged m o p

/-- Then the end of the test, when the frame was one (R92). -/
def testEnded (test : Bool) : Part :=
  if test then finishTest m o (faultReported m o p) else faultReported m o p

theorem linkJudged_keeps : Part.keeps [.links] p (linkJudged m o p) := (Part.keeps.refl _ p).setLinks _

theorem faultReported_links : (faultReported m o p).links = (linkJudged m o p).links := by
  unfold faultReported
  split
  · exact reportUnlessOut_links m _ _
  · rfl

theorem faultReported_acq : (faultReported m o p).acq = p.acq := by
  unfold faultReported
  split
  · exact reportUnlessOut_acq m _ _
  · rfl

theorem testEnded_links (test : Bool) : (testEnded m o p test).links = (linkJudged m o p).links := by
  unfold testEnded
  split
  · rw [finishTest_eq, finishLinkTest_links, faultReported_links]
  · exact faultReported_links m o p

theorem faultReported_wf (hwf : Memory.wf p.exch.mem = true) :
    Memory.wf (faultReported m o p).exch.mem = true := by
  unfold faultReported
  split
  · exact (reportUnlessOut_preserves m _ (linkJudged m o p)).memory hwf
  · exact hwf

theorem faultReported_entries :
    (faultReported m o p).orders = { p.orders with
      stop := (faultReported m o p).orders.stop, run := (faultReported m o p).orders.run } := by
  unfold faultReported reportUnlessOut
  split
  · split
    · rfl
    · exact report_entries _ (linkJudged m o p)
  · rfl

/-- What the report of a fault comes to: a trip event, or nothing. -/
theorem faultReported_spec (hwf : Memory.wf p.exch.mem = true) :
    if (o.faults (p.links.get m).state = true ∧ p.motorState m ≠ .out) ∧
        isLatched p.trip.latched (.inverterFault m) = false then
      TripTaken (.inverterFault m) .inhibitOne (linkJudged m o p) (faultReported m o p) ∧
        (faultReported m o p).seq = (inhibitOneOrder m p).seq
    else faultReported m o p = linkJudged m o p := by
  cases hfaults : o.faults (p.links.get m).state with
  | false =>
    rw [if_neg (fun h => Bool.false_ne_true h.1.1), faultReported, hfaults]
    rfl
  | true =>
    simp only [true_and]
    rw [faultReported, if_pos hfaults, ← inhibitOneOrder_seq_congr m p (linkJudged m o p) rfl rfl rfl]
    exact reportUnlessOut_spec m (.inverterFault m) (linkJudged m o p) rfl rfl hwf

theorem faultReported_taken (hwf : Memory.wf p.exch.mem = true)
    (h : o.faults (p.links.get m).state = true ∧ p.motorState m ≠ .out)
    (hnew : isLatched p.trip.latched (.inverterFault m) = false) :
    TripTaken (.inverterFault m) .inhibitOne (linkJudged m o p) (faultReported m o p) ∧
      (faultReported m o p).seq = (inhibitOneOrder m p).seq := by
  have hspec := faultReported_spec m o p hwf
  rwa [if_pos ⟨h, hnew⟩] at hspec

theorem faultReported_of_quiet (hwf : Memory.wf p.exch.mem = true)
    (h : ¬ (o.faults (p.links.get m).state = true ∧ p.motorState m ≠ .out) ∨
      isLatched p.trip.latched (.inverterFault m) = true) :
    faultReported m o p = linkJudged m o p := by
  have hspec := faultReported_spec m o p hwf
  rwa [if_neg (fun hall => h.elim (absurd hall.1) (fun hl => Bool.false_ne_true (hall.2.symm.trans hl)))]
    at hspec

theorem testEnded_of_none (test : Bool) (h : test = false ∨ p.orders.linkTest.get m = none) :
    testEnded m o p test = faultReported m o p := by
  unfold testEnded
  split
  · next htest =>
    rw [finishTest_eq]
    refine finishLinkTest_of_none m _ _ _ ?_
    rw [faultReported_entries]
    exact h.resolve_left (by simp [htest])
  · rfl

theorem testEnded_settings (test : Bool) : (testEnded m o p test).settings = p.settings := by
  have hreported : (faultReported m o p).settings = p.settings := by
    rw [Part.settings, faultReported_entries]
    rfl
  unfold testEnded
  split
  · rw [finishTest_eq, Part.settings, finishLinkTest_orders]
    exact hreported
  · exact hreported

/-- The end of a test: its cell, its entry and ORDER alone change, with the outcome of the judgement. -/
theorem testEnded_of_some (hwf : Memory.wf p.exch.mem = true) (k : CellId)
    (hk : p.orders.linkTest.get m = some k) :
    (testEnded m o p true).orders = { (faultReported m o p).orders with
      linkTest := p.orders.linkTest.set m none } ∧
    Part.raisesOnly [.order] (faultReported m o p) (testEnded m o p true) ∧
    Part.storesOnly (cellAnswerByte k) (faultReported m o p) (testEnded m o p true) ∧
    Part.keeps [.exch, .attn, .orders] (faultReported m o p) (testEnded m o p true) ∧
    CellFinished k o.testCode o.testValues p (testEnded m o p true) := by
  have hentries : (faultReported m o p).orders.linkTest = p.orders.linkTest := by
    rw [faultReported_entries]
  have hq : testEnded m o p true = finishLinkTest m o.testCode o.testValues (faultReported m o p) :=
    finishTest_eq m o _
  obtain ⟨hraises, hstores, hfinished⟩ := finishLinkTest_spec m o.testCode o.testValues
    (faultReported m o p) (faultReported_wf m o p hwf) k (by rw [hentries, hk])
  rw [hq]
  refine ⟨?_, hraises, hstores, (Part.keeps.refl _ _).endLinkTest m _ _,
    hfinished.of_frame (congrArg Acquisition.frameCount (faultReported_acq m o p))⟩
  rw [finishLinkTest_orders, hentries]

theorem replyWindowClose_of_none (h : (p.links.get m).window = none) : replyWindowClose m p = .only p := by
  simp only [replyWindowClose, h]

/-- The close of an open window: the link judged, a fault reported, a test ended, and a row brought about. -/
theorem replyWindowClose_of_some (w : ReplyWindow) (h : (p.links.get m).window = some w) :
    replyWindowClose m p =
      { part := testEnded m (judgeReply w) p w.test
        due := (p.links.get m).closeDue m p.settings.linkTolerance (judgeReply w) } := by
  have hreport : faultReported m (judgeReply w) p =
      match (p.links.get m).state, judgeReply w with
      | .up, .good .fault _ _ =>
        if (linkJudged m (judgeReply w) p).motorState m = .out then linkJudged m (judgeReply w) p
        else report (.inverterFault m) (linkJudged m (judgeReply w) p)
      | _, _ => linkJudged m (judgeReply w) p := by
    unfold faultReported ReplyOutcome.faults
    split <;> rfl
  rw [← testEnded_settings m (judgeReply w) p w.test, testEnded, hreport]
  simp only [replyWindowClose, h]
  rfl

end Close

/-- Settles O39: the judgement decides each part of the close, and each part is said by its own lemma. -/
theorem replyWindowClosed : Obligations.ReplyWindowClosed := by
  intro m s rest ha hwf l
  have hexec : exec (.replyWindowClose m) s = occur (.replyWindowClose m) s := rfl
  rw [hexec, occur, occurWith_head _ _ s rest rfl ha]
  refine ⟨fun h => ?none, fun w hw => ?some⟩
  case none =>
    rw [runWork, replyWindowClose_of_none m s.part h]
    rfl
  case some =>
    intro good noGood faulted
    rw [runWork, replyWindowClose_of_some m s.part w hw]
    have hgood : ∀ {st code flag}, good st code flag → judgeReply w = .good st code flag :=
      fun h => (judgeReply_eq_good_iff w _ _ _).2 h
    have hnone : noGood → (judgeReply w).isGood = false := fun h =>
      (ReplyOutcome.isGood_eq_false_iff _).2 (fun st code flag ho =>
        h st code flag ((judgeReply_eq_good_iff w _ _ _).1 ho))
    have hfaulted : faulted ↔ (judgeReply w).faults l.state = true ∧ s.part.motorState m ≠ .out := by
      simp only [faulted, ReplyOutcome.faults_iff, judgeReply_eq_good_iff, and_assoc]
      rfl
    generalize judgeReply w = o at hgood hnone hfaulted ⊢
    have hlinks : (testEnded m o s.part w.test).links = s.part.links.set m (l.judged o) :=
      testEnded_links m o s.part w.test
    refine ⟨_, _, rfl, ?_⟩
    intro l'
    have hl' : l' = l.judged o := by
      simp only [l', hlinks, PerMotor.get_set_same]
    clear_value l'
    subst hl'
    refine ⟨by rw [hlinks, PerMotor.get_set_other], l.judged_frame o, fun st code flag h => ?reply,
      fun h => ?held, fun hs => ⟨l.judged_lossCount_kept (by simp [hs]) o, fun st code flag h => ?syncGood,
        fun h => ?syncOther, l.closeDue_syncing m _ hs o⟩,
      fun hs => ⟨l.judged_syncRun_kept (by simp [hs]) o, fun st code flag h => ?upGood, fun h => ?upOther⟩,
      fun hs => ⟨l.judged_syncRun_kept (by grind) o, l.judged_lossCount_kept (by grind) o,
        l.closeDue_quiet m _ hs o⟩,
      ?parts, fun h htest => ?quiet, fun k htest hk => ?test⟩
    case reply => rw [hgood h, Link.judged_good]; exact ⟨rfl, rfl⟩
    case held => rw [Link.judged_of_not_good l (hnone h)]; exact ⟨rfl, rfl⟩
    case syncGood => rw [hgood h, Link.judged_good]; exact if_pos hs
    case syncOther => rw [Link.judged_of_not_good l (hnone h)]; exact if_pos hs
    case upGood =>
      rw [hgood h, Link.judged_good]
      exact ⟨if_pos hs, l.closeDue_up_good m _ hs st code flag⟩
    case upOther =>
      refine ⟨?_, l.closeDue_up_of_not_good m _ hs (hnone h)⟩
      rw [Link.judged_of_not_good l (hnone h)]
      exact if_pos hs
    case parts =>
      refine ⟨linkJudged m o s.part, faultReported m o s.part, (testEnded_links m o s.part w.test).symm,
        linkJudged_keeps m o s.part, fun h => faultReported_taken m o s.part hwf (hfaulted.1 h),
        fun h => faultReported_of_quiet m o s.part hwf (h.imp_left (mt hfaulted.2)),
        testEnded_of_none m o s.part w.test, fun k htest hk => ?_⟩
      rw [htest]
      obtain ⟨horders, hraises, hstores, hkeeps, _⟩ := testEnded_of_some m o s.part hwf k hk
      exact ⟨horders, hraises, hstores, hkeeps⟩
    case quiet =>
      dsimp only
      rw [testEnded_of_none m o s.part w.test (.inl htest),
        faultReported_of_quiet m o s.part hwf (.inl (mt hfaulted.2 h))]
      exact linkJudged_keeps m o s.part
    case test =>
      rw [htest]
      obtain ⟨horders, _, _, _, hfinished⟩ := testEnded_of_some m o s.part hwf k hk
      refine ⟨by rw [horders, PerMotor.get_set_same], fun h => ?_, fun st code h => ?_, fun st code h => ?_⟩
      · rwa [ReplyOutcome.testCode_of_not_good (hnone h), ReplyOutcome.testValues_of_not_good (hnone h)]
          at hfinished
      · rwa [hgood h] at hfinished ⊢
      · rwa [hgood h] at hfinished ⊢

end Sys2Proof.Machine
end

section
/-! The completion of current control: the computation of an energized motor, the resting values, and the
reference frame that goes out (R65, R69 to R73, R79, R82 to R84, R92). -/

namespace Sys2Proof.Machine

/-! ## The stages of the computation -/

section Stages

variable (p : Part) (m : Motor) (c : Control)

/-- What a completion makes of the control block of motor `m` (R64). -/
def controlled : Control :=
  if (p.motorState m).energized then computeEnergized p m c else computeResting p m c

theorem controlCompute_eq :
    controlCompute m p = sendFrame m (p.setCtl (p.ctl.set m (controlled p m (p.ctl.get m)))) := rfl

theorem controlled_energized (h : (p.motorState m).energized = true) :
    controlled p m c = computeEnergized p m c := if_pos h

theorem controlled_resting (h : (p.motorState m).energized = false) :
    controlled p m c = computeResting p m c := by
  simp [controlled, h]

/-- The start copy in force after a motor's energizing: the one it has, or a fresh one (R65). -/
def Control.startInForce (r : Ratings) : StartCopy :=
  if c.energized then c.start else { countsPerRev := r.countsPerRev, kang := r.kang, kslip := r.kslip }

/-- A motor's energizing, field by field; one that is energized already is left as it is (R65). -/
theorem energizing_eq (r : Ratings) :
    c.energizing r = { c with
      energized := true, start := c.startInForce r
      slip := if c.energized then c.slip else 0
      integD := if c.energized then c.integD else 0
      integQ := if c.energized then c.integQ else 0 } := by
  unfold Control.energizing Control.startInForce
  cases h : c.energized with
  | false => rfl
  | true =>
    obtain ⟨⟩ := c
    simp only at h
    subst h
    rfl

theorem slipStep_cast (slip : Nat) (idRef iqRef : Int) (s : StartCopy) :
    (slipStep slip idRef iqRef s : Int) = ((slip : Int) + (iqRef * s.kslip).tdiv (max idRef 64)) % 65536 :=
  Int.toNat_of_nonneg (Int.emod_nonneg _ (by decide))

/-! The fields of the control block after a completion. -/

theorem controlled_frame :
    let c' := controlled p m c
    c' = { c with
      energized := c'.energized, start := c'.start, slip := c'.slip, theta := c'.theta, integD := c'.integD
      integQ := c'.integQ, vd := c'.vd, vq := c'.vq, vAlpha := c'.vAlpha, vBeta := c'.vBeta, id := c'.id
      iq := c'.iq, limited := c'.limited } := by
  cases h : (p.motorState m).energized with
  | false => rw [controlled_resting p m c h]; rfl
  | true => rw [controlled_energized p m c h, computeEnergized, energizing_eq]

/-- Clarke and Park from the held samples, on either path (R72, R73). -/
theorem controlled_currents :
    let c' := controlled p m c
    let iBeta := saturate (roundedShift 15 ((c.heldA + 2 * c.heldB) * 18919))
    c'.id = saturate (roundedShift 15 (c.heldA * cosOf c'.theta + iBeta * sinOf c'.theta)) ∧
    c'.iq = saturate (roundedShift 15 (iBeta * cosOf c'.theta - c.heldA * sinOf c'.theta)) := by
  cases h : (p.motorState m).energized with
  | false => rw [controlled_resting p m c h]; exact ⟨rfl, rfl⟩
  | true => rw [controlled_energized p m c h, computeEnergized, energizing_eq]; exact ⟨rfl, rfl⟩

/-- A motor that is not energized has its angle without slip, and all else of the regulator 0 (R65). -/
theorem controlled_at_rest (h : (p.motorState m).energized = false) :
    let c' := controlled p m c
    c'.energized = false ∧ c'.start = c.start ∧ c'.theta = rotorAngle (p.acq.enc.get m).counter c'.start ∧
    c'.vd = 0 ∧ c'.vq = 0 ∧ c'.vAlpha = 0 ∧ c'.vBeta = 0 ∧ c'.integD = 0 ∧ c'.integQ = 0 ∧ c'.slip = 0 ∧
    c'.limited = 0 := by
  rw [controlled_resting p m c h]
  exact ⟨rfl, rfl, Nat.mod_mod _ _, rfl, rfl, rfl, rfl, rfl, rfl, rfl, rfl⟩

section Energized

variable (h : (p.motorState m).energized = true)
include h

/-- An energized motor runs on its start copy, which it takes at its energizing (R65). -/
theorem controlled_start :
    (controlled p m c).energized = true ∧ (controlled p m c).start = c.startInForce p.orders.ratings := by
  rw [controlled_energized p m c h, computeEnergized, energizing_eq]
  exact ⟨rfl, rfl⟩

theorem controlled_slip :
    let c' := controlled p m c
    (c'.slip : Int) = ((if c.energized then (c.slip : Int) else 0) +
      ((p.allot.motor.get m).iqRef * c'.start.kslip).tdiv (max (p.seq.motor.get m).idRef 64)) % 65536 := by
  rw [controlled_energized p m c h, computeEnergized, energizing_eq]
  refine (slipStep_cast _ _ _ _).trans ?_
  rw [Nat.cast_ite, Nat.cast_zero]

theorem controlled_theta :
    let c' := controlled p m c
    c'.theta = (rotorAngle (p.acq.enc.get m).counter c'.start + c'.slip) % 65536 := by
  rw [controlled_energized p m c h]
  rfl

theorem controlled_regulated :
    let c' := controlled p m c
    regulate
      { idRef := (p.seq.motor.get m).idRef, iqRef := (p.allot.motor.get m).iqRef, id := c'.id, iq := c'.iq
        speed := (p.acq.enc.get m).speed, udc := c.heldUdc, kp := p.settings.kp, ki := p.settings.ki
        vlim := p.settings.vlim, kemf := p.settings.kemf }
      (if c.energized then c.integD else 0) (if c.energized then c.integQ else 0) =
      { vd := c'.vd, vq := c'.vq, integD := c'.integD, integQ := c'.integQ, limited := c'.limited } := by
  rw [controlled_energized p m c h, computeEnergized, energizing_eq]

/-- Inverse Park from the voltages of the regulator (R79). -/
theorem controlled_phases :
    let c' := controlled p m c
    c'.vAlpha = saturate (roundedShift 15 (c'.vd * cosOf c'.theta - c'.vq * sinOf c'.theta)) ∧
    c'.vBeta = saturate (roundedShift 15 (c'.vd * sinOf c'.theta + c'.vq * cosOf c'.theta)) := by
  rw [controlled_energized p m c h]
  exact ⟨rfl, rfl⟩

end Energized

end Stages

/-! ## The frame (R82 to R84, R92) -/

/-- A voltage as the frame carries it: 0 unless the command is ENABLE (R82). -/
def LinkCommand.voltageWord (cmd : LinkCommand) (v : Int) : Word :=
  match cmd with
  | .enable => wordOf v
  | .sync | .inhibit => 0#16

theorem LinkCommand.code_eq_three_iff (cmd : LinkCommand) : cmd.code = 3 ↔ cmd = .enable := by
  cases cmd <;> decide

theorem LinkCommand.voltageWord_of_other {cmd : LinkCommand} (h : cmd.code ≠ 3) (v : Int) :
    cmd.voltageWord v = 0#16 := by
  cases cmd with
  | sync => rfl
  | inhibit => rfl
  | enable => exact absurd rfl h

theorem referenceFrame_eq (sequence : Nat) (cmd : LinkCommand) (vAlpha vBeta : Int) (test : Bool) :
    referenceFrame sequence cmd vAlpha vBeta test =
      let words := [wordOfNat (sequence + 16 * cmd.code), cmd.voltageWord vAlpha, cmd.voltageWord vBeta]
      words ++ [if test then ~~~checkWord words else checkWord words] := by
  cases cmd <;> rfl

section Frame

variable (m : Motor) (p : Part)

theorem linkCommand_syncing (h : (p.links.get m).state = .syncing) : linkCommand p m = .sync := by
  simp only [linkCommand, h]

theorem linkCommand_lost (h : (p.links.get m).state = .lost) : linkCommand p m = .inhibit := by
  simp only [linkCommand, h]

/-- In UP, ENABLE goes out while the motor is energized with no inhibit-class cause for it latched (R83). -/
theorem linkCommand_enable (h : (p.links.get m).state = .up) (hrun : (p.motorState m).energized = true)
    (hquiet : inhibitLatched p.trip.latched m = false) : linkCommand p m = .enable := by
  simp [linkCommand, h, hrun, hquiet]

theorem linkCommand_inhibit (h : (p.links.get m).state = .up)
    (hheld : (p.motorState m).energized = false ∨ inhibitLatched p.trip.latched m = true) :
    linkCommand p m = .inhibit := by
  obtain hrest | hlatched := hheld
  · simp [linkCommand, h, hrest]
  · simp [linkCommand, h, hlatched]

theorem sendFrame_down (h : (p.links.get m).state = .down) : sendFrame m p = p := by
  simp only [sendFrame, h]

/-- The link of motor `m` after its frame has gone out. -/
def frameSent : Link :=
  let l := p.links.get m
  { l with
    sequence := (l.sequence + 1) % 16
    window := some
      { sequence := l.sequence, test := l.testPending, first := none, further := false, closed := false }
    testPending := false
    sent := referenceFrame l.sequence (linkCommand p m) (p.ctl.get m).vAlpha (p.ctl.get m).vBeta l.testPending }

theorem sendFrame_sent (h : (p.links.get m).state ≠ .down) : sendFrame m p = p.setLink m (frameSent m p) := by
  unfold sendFrame
  dsimp only
  split
  · next hdown => exact absurd hdown h
  all_goals rfl

theorem sendFrame_setLink : ∃ l, sendFrame m p = p.setLink m l := by
  by_cases h : (p.links.get m).state = .down
  · refine ⟨p.links.get m, (sendFrame_down m p h).trans ?_⟩
    rw [Part.setLink, PerMotor.set_get_self]
    rfl
  · exact ⟨_, sendFrame_sent m p h⟩

theorem sendFrame_keeps : Part.keeps [.links] p (sendFrame m p) := by
  obtain ⟨l, hl⟩ := sendFrame_setLink m p
  rw [hl]
  exact (Part.keeps.refl _ p).setLinks _

theorem sendFrame_other : (sendFrame m p).links.get m.other = p.links.get m.other := by
  obtain ⟨l, hl⟩ := sendFrame_setLink m p
  rw [hl]
  exact PerMotor.get_set_other _ m l

end Frame

/-- Settles O41: the control block by its stages, then the frame by the link's state. -/
theorem referenceFrameSent : Obligations.ReferenceFrameSent := by
  intro m p q l l' c0 c energized inhibited kept rotor sine cosine iBeta
  have henergized : (p.motorState m).energized = true ↔ energized := MotorState.energized_iff _
  have hinhibited : inhibitLatched p.trip.latched m = true ↔ inhibited := inhibitLatched_iff _ m
  let p' := p.setCtl (p.ctl.set m (controlled p m c0))
  have hq : q = sendFrame m p' := controlCompute_eq p m
  have hkeeps : Part.keeps [.links] p' q := hq ▸ sendFrame_keeps m p'
  have hctl : q.ctl = p.ctl.set m (controlled p m c0) := hkeeps .ctl (by decide)
  have hc : c = controlled p m c0 := by
    simp only [c, hctl, PerMotor.get_set_same]
  refine ⟨rfl, ((Part.keeps.refl _ p).setCtl _).trans (hkeeps.mono (by decide)), ?_, ?_, ?_⟩
  · rw [hctl, PerMotor.get_set_other]
  · exact hq ▸ sendFrame_other m p'
  clear_value c
  subst hc
  obtain ⟨hid, hiq⟩ := controlled_currents p m c0
  refine ⟨controlled_frame p m c0, hid, hiq, fun h => ?resting, fun h => ?energized,
    fun h => ?down, fun h => ?sent⟩
  case resting => exact controlled_at_rest p m c0 (Bool.eq_false_iff.2 (mt henergized.1 h))
  case energized =>
    have hrun := henergized.2 h
    obtain ⟨hon, hstart⟩ := controlled_start p m c0 hrun
    exact ⟨hon, fun h0 => hstart.trans (if_pos h0), fun h0 => hstart.trans (if_neg (by simp [h0])),
      controlled_slip p m c0 hrun, controlled_theta p m c0 hrun, controlled_regulated p m c0 hrun,
      controlled_phases p m c0 hrun⟩
  case down =>
    have hkept : q = p' := hq.trans (sendFrame_down m p' h)
    simp only [l', hkept]
    rfl
  case sent =>
    have hsent : q = p'.setLink m (frameSent m p') := hq.trans (sendFrame_sent m p' h)
    have hc' : p'.ctl.get m = controlled p m c0 := PerMotor.get_set_same _ m _
    refine ⟨(linkCommand p' m).code, (linkCommand p' m).voltageWord (p'.ctl.get m).vAlpha,
      (linkCommand p' m).voltageWord (p'.ctl.get m).vBeta, ?_, fun hs => ?syncing, fun hs => ?lost,
      fun hs hrun hquiet => ?enable, fun hs hheld => ?inhibit, fun hcmd => ?volts, fun hcmd => ?none⟩
    · simp only [l', hsent, Part.setLink_links, PerMotor.get_set_same, frameSent, referenceFrame_eq]
      rfl
    case syncing => rw [linkCommand_syncing m p' hs]; rfl
    case lost => rw [linkCommand_lost m p' hs]; rfl
    case enable =>
      rw [linkCommand_enable m p' hs (henergized.2 hrun) (Bool.eq_false_iff.2 (mt hinhibited.1 hquiet))]
      rfl
    case inhibit =>
      rw [linkCommand_inhibit m p' hs
        (hheld.imp (fun hrest => Bool.eq_false_iff.2 (mt henergized.1 hrest)) hinhibited.2)]
      rfl
    case volts =>
      rw [(LinkCommand.code_eq_three_iff _).1 hcmd, hc']
      exact ⟨rfl, rfl⟩
    case none => exact ⟨LinkCommand.voltageWord_of_other hcmd _, LinkCommand.voltageWord_of_other hcmd _⟩

end Sys2Proof.Machine
end

section
/-! The trip orders of the sequencer, and the rows that report one cause to the trip unit (R101, R107 to R110,
R155 to R158). -/

namespace Sys2Proof.Machine

/-! ## Trip orders -/

theorem carriesOn_iff (p : Part) (m : Motor) :
    carriesOn p m = true ↔ (p.seq.group = .starting ∨ p.seq.group = .running) ∧
      p.settings.singleAllowed = true ∧ p.motorState m.other = .running := by
  simp only [carriesOn, Bool.and_eq_true, Bool.or_eq_true, beq_iff_eq, and_assoc]

section InhibitOne

variable (m : Motor) (p : Part)

theorem inhibitOneOrder_of_out (h : p.motorState m = .out) : inhibitOneOrder m p = p := if_pos h

/-- The drive carries on with the other motor (R108, step 3). -/
theorem inhibitOneOrder_of_carriesOn (h : p.motorState m ≠ .out) (hon : carriesOn p m = true) :
    inhibitOneOrder m p = p.setSeq (p.seq.setMotor m (p.seq.motor.get m).inhibited) :=
  (if_neg h).trans (if_pos hon)

/-- The group trips with the motor, and the other motor ramps down (R108, step 4). -/
theorem inhibitOneOrder_of_tripped (h : p.motorState m ≠ .out) (hoff : ¬ carriesOn p m = true) :
    inhibitOneOrder m p = p.setSeq { p.seq.groupTripped with
      motor := (p.seq.motor.set m (p.seq.motor.get m).inhibited).set m.other
        ((p.seq.motor.get m.other).ramped (p.allot.motor.get m.other).torqueRef) } := by
  have hother : (p.seq.setMotor m (p.seq.motor.get m).inhibited).motor.get m.other =
      p.seq.motor.get m.other := PerMotor.get_set_other _ _ _
  refine ((if_neg h).trans (if_neg hoff)).trans ?_
  rw [hother]
  rfl

end InhibitOne

/-! ## The rows that report a cause -/

/-- Such a row, when it stands first, reports its cause and brings nothing about (R155). -/
theorem ReportRow.exec_eq {c : Instr} {w : Work} {cause : Cause} (h : ReportRow c w cause) (s : State)
    (rest : List Work) (ha : s.agenda = w :: rest) :
    exec c s = .next (drain { s with agenda := rest, part := report cause s.part }) := by
  cases h <;> exact occurWith_head _ _ s rest rfl ha

/-- Settles O37: each order by the state of a motor; each row is the report of its cause, whose class is that of
the cause table. -/
theorem reportRows : Obligations.ReportRows := by
  refine ⟨fun p => ?orders, fun c w cause s rest hrow ha hwf => ?row⟩
  case orders =>
    intro tripped ramped grouped
    have htripped : tripped = MotorSeq.inhibited := funext fun x => by
      rcases x with ⟨state, _⟩
      cases state <;> rfl
    have hramped : ∀ m x, ramped m x = x.ramped (p.allot.motor.get m).torqueRef := fun m x => by
      rcases x with ⟨state, _⟩
      cases state <;> rfl
    simp only [htripped, hramped]
    refine ⟨rfl, rfl, fun m => ⟨inhibitOneOrder_of_out m p, fun hin hon => ?_, fun hin hoff => ?_⟩⟩
    · exact inhibitOneOrder_of_carriesOn m p hin ((carriesOn_iff p m).2 hon)
    · exact inhibitOneOrder_of_tripped m p hin (mt (carriesOn_iff p m).1 hoff)
  case row =>
    refine ⟨report cause s.part, hrow.exec_eq s rest ha, ?_⟩
    split
    case isTrue hlatched => exact report_of_latched cause s.part hlatched
    case isFalse hnew =>
      rw [report_of_new cause s.part (Bool.eq_false_iff.2 hnew)]
      have htaken := tripEvent_taken cause (s.part.settings.classOf cause) s.part hwf
      cases hrow with
      | currentSensorLost m => exact And.intro htaken (tripEvent_seq_inhibitOne _ m s.part rfl)
      | encoderLost m => exact And.intro htaken (tripEvent_seq_inhibitOne _ m s.part rfl)
      | overspeed => exact And.intro htaken (tripEvent_seq_inhibitAll _ s.part)
      | speedMismatch => exact And.intro htaken (tripEvent_seq_inhibitAll _ s.part)
      | failedStart => exact And.intro htaken (tripEvent_seq_rampAll _ s.part)

end Sys2Proof.Machine
end

section
/-! Steps 1 and 2 of the sequencer's frame: the release from TRIPPED and the trip ramps; then the end of a trip
ramp (R98, R111, R115). -/

namespace Sys2Proof.Machine

/-! ## Step 1: the release from TRIPPED -/

/-- A cause that belongs to motor `m`, or a group cause, is latched (R157). -/
def TripHeld (ls : List Latched) (m : Motor) : Prop :=
  (∃ l ∈ ls, l.cause.owner = some m) ∨ ∃ l ∈ ls, l.cause.owner = none

section ReleaseMotor

variable (ls : List Latched) (m : Motor) (x : MotorSeq)

theorem releaseMotor_eq_of_not_tripped (h : x.state ≠ .tripped) : releaseMotor ls m x = x :=
  if_neg fun hx => h hx.1

theorem releaseMotor_of_held (h : TripHeld ls m) : releaseMotor ls m x = x := by
  rw [TripHeld, ← motorCauseLatched_iff, ← groupCauseLatched_iff] at h
  refine if_neg ?_
  rintro ⟨-, hown, hgroup⟩
  simp [hown, hgroup] at h

theorem releaseMotor_of_free (hx : x.state = .tripped) (h : ¬ TripHeld ls m) :
    releaseMotor ls m x = x.atRest .stopped := by
  rw [TripHeld, ← motorCauseLatched_iff, ← groupCauseLatched_iff, not_or] at h
  exact if_pos ⟨hx, Bool.eq_false_iff.2 h.1, Bool.eq_false_iff.2 h.2⟩

/-- The release leads from TRIPPED to STOPPED and touches no other state. -/
theorem releaseMotor_state_iff {st : MotorState} (ht : st ≠ .tripped) (hs : st ≠ .stopped) :
    (releaseMotor ls m x).state = st ↔ x.state = st := by
  unfold releaseMotor
  split
  next h => exact ⟨fun e => absurd e.symm hs, fun e => absurd (e.symm.trans h.1) ht⟩
  next => rfl

end ReleaseMotor

theorem onlyOutCauses_iff (ls : List Latched) (q : Sequencer) :
    onlyOutCauses ls q = true ↔ ∀ l ∈ ls, ∃ m, l.cause.owner = some m ∧ (q.motor.get m).state = .out := by
  rw [onlyOutCauses, List.all_eq_true]
  refine forall₂_congr fun l _ => ?_
  cases l.cause.owner <;> simp

/-- The TRIPPED group is released: every latched cause belongs to a motor that is OUT, and no motor is STOPPING
(R115). -/
def GroupFreed (p : Part) : Prop :=
  p.seq.group = .tripped ∧
  (∀ l ∈ p.trip.latched, ∃ m, l.cause.owner = some m ∧ p.motorState m = .out) ∧
  ∀ m, p.motorState m ≠ .stopping

/-- The sequencer after its motors' release. -/
def motorsReleased (p : Part) : Sequencer := { p.seq with
  motor := { a := releaseMotor p.trip.latched .a p.seq.motor.a
             b := releaseMotor p.trip.latched .b p.seq.motor.b } }

theorem motorsReleased_get (p : Part) (m : Motor) :
    (motorsReleased p).motor.get m = releaseMotor p.trip.latched m (p.seq.motor.get m) := by
  cases m <;> rfl

/-- The group's release may be judged before or after that of the motors. -/
theorem groupFreed_iff (p : Part) :
    GroupFreed p ↔ p.seq.group = .tripped ∧ onlyOutCauses p.trip.latched (motorsReleased p) = true ∧
      (motorsReleased p).motor.a.state ≠ .stopping ∧ (motorsReleased p).motor.b.state ≠ .stopping := by
  have hstate : ∀ st, st ≠ .tripped → st ≠ .stopped → ∀ m,
      ((motorsReleased p).motor.get m).state = st ↔ p.motorState m = st := fun st ht hs m => by
    rw [motorsReleased_get]
    exact releaseMotor_state_iff _ _ _ ht hs
  have hmoving : (∀ m, p.motorState m ≠ .stopping) ↔
      (motorsReleased p).motor.a.state ≠ .stopping ∧ (motorsReleased p).motor.b.state ≠ .stopping := by
    simp only [ne_eq, ← hstate .stopping (by decide) (by decide)]
    exact ⟨fun h => ⟨h .a, h .b⟩, fun h m => by cases m with | a => exact h.1 | b => exact h.2⟩
  rw [GroupFreed, onlyOutCauses_iff, hmoving]
  simp only [hstate .out (by decide) (by decide)]

theorem releaseStep_of_freed (p : Part) (h : GroupFreed p) :
    releaseStep p = p.setSeq { (motorsReleased p).loopCleared with group := .idle } :=
  if_pos ((groupFreed_iff p).1 h)

theorem releaseStep_of_held (p : Part) (h : ¬ GroupFreed p) : releaseStep p = p.setSeq (motorsReleased p) :=
  if_neg (mt (groupFreed_iff p).2 h)

theorem releaseStep_keeps (p : Part) : Part.keeps [.seq] p (releaseStep p) := by
  by_cases h : GroupFreed p
  · rw [releaseStep_of_freed p h]
    exact (Part.keeps.refl _ p).setSeq _
  · rw [releaseStep_of_held p h]
    exact (Part.keeps.refl _ p).setSeq _

theorem releaseStep_motor (p : Part) : (releaseStep p).seq.motor = (motorsReleased p).motor := by
  by_cases h : GroupFreed p
  · rw [releaseStep_of_freed p h]
    rfl
  · rw [releaseStep_of_held p h]
    rfl

/-! ## Step 2: the trip ramps -/

section RampStep

variable (x : MotorSeq) (rate : Nat)

theorem MotorSeq.rampStep_of_ramping (hs : x.state = .stopping) (hr : x.ramping = true) :
    x.rampStep rate = { x with ramp := max 0 (x.ramp - rate) } := if_pos ⟨hs, hr⟩

theorem MotorSeq.rampStep_of_not_ramping (h : x.state ≠ .stopping ∨ x.ramping = false) :
    x.rampStep rate = x := if_neg fun hx => h.elim (absurd hx.1) (fun hr => Bool.false_ne_true (hr ▸ hx.2))

theorem MotorSeq.rampDone_iff :
    x.rampDone = true ↔ x.state = .stopping ∧ x.ramping = true ∧ x.ramp = 0 := by
  simp only [MotorSeq.rampDone, Bool.and_eq_true, beq_iff_eq, and_assoc]

end RampStep

section Frame

variable (p : Part)

theorem sequencerFrame_keeps : Part.keeps [.seq] p (sequencerFrame p).part := (releaseStep_keeps p).setSeq _

/-- Each motor is released, then takes a step of its trip ramp. -/
theorem sequencerFrame_motor (m : Motor) :
    (sequencerFrame p).part.seq.motor.get m =
      (releaseMotor p.trip.latched m (p.seq.motor.get m)).rampStep p.settings.stopRamp := by
  have horders : (releaseStep p).orders = p.orders := releaseStep_keeps p .orders (by decide)
  rw [← motorsReleased_get, ← releaseStep_motor, Part.settings, ← horders]
  exact PerMotor.get_map _ _ m

theorem sequencerFrame_seq_of_freed (h : GroupFreed p) :
    (sequencerFrame p).part.seq = { p.seq with
      motor := (sequencerFrame p).part.seq.motor, group := .idle, reference := 0, integrator := 0
      remainder := 0, demand := 0 } := by
  simp only [sequencerFrame, releaseStep_of_freed p h]
  rfl

theorem sequencerFrame_seq_of_held (h : ¬ GroupFreed p) :
    (sequencerFrame p).part.seq = { p.seq with motor := (sequencerFrame p).part.seq.motor } := by
  simp only [sequencerFrame, releaseStep_of_held p h]
  rfl

/-- The ends of trip ramps, A before B, stand before the steps that follow (log 16). -/
theorem sequencerFrame_due :
    (sequencerFrame p).due =
      (if ((sequencerFrame p).part.seq.motor.get .a).rampDone then [Work.tripRampEnd .a] else []) ++
      (if ((sequencerFrame p).part.seq.motor.get .b).rampDone then [Work.tripRampEnd .b] else []) ++
      [Work.sequencerStart] := by
  have hlist : (sequencerFrame p).due =
      (Motor.all.filter (fun m => ((sequencerFrame p).part.seq.motor.get m).rampDone)).map Work.tripRampEnd ++
        [Work.sequencerStart] := rfl
  rw [hlist, Motor.all, List.filter_cons, List.filter_cons]
  split_ifs <;> rfl

end Frame

/-! ## The end of a trip ramp -/

theorem tripRampEnd_inhibitLine (m : Motor) (p : Part) : inhibitLine (tripRampEnd m p) m = true := by
  have hstate : (tripRampEnd m p).motorState m = .tripped :=
    congrArg MotorSeq.state (PerMotor.get_set_same _ m _)
  rw [inhibitLine_eq, hstate]
  simp [MotorState.energized]

/-- Settles O43: a motor by its state before the frame, the group by whether it is freed, the due ends by the
ramps that have come to 0. -/
theorem tripRampEnded : Obligations.TripRampEnded := by
  refine ⟨fun p => ?frame, fun m s rest ha => ?rampEnd⟩
  case frame =>
    intro work q groupCause ownCause ended
    have hmotor : ∀ m, q.seq.motor.get m =
        (releaseMotor p.trip.latched m (p.seq.motor.get m)).rampStep p.settings.stopRamp :=
      sequencerFrame_motor p
    have hdue : work.due = _ := sequencerFrame_due p
    have hended : ∀ m, ended m ↔ ((sequencerFrame p).part.seq.motor.get m).rampDone = true := fun m =>
      (MotorSeq.rampDone_iff _).symm
    refine ⟨sequencerFrame_keeps p, fun m => ?motor,
      ⟨sequencerFrame_seq_of_freed p, sequencerFrame_seq_of_held p⟩, fun hA hB => ?both, fun m h ho => ?one,
      fun hA hB => ?neither⟩
    case motor =>
      dsimp only
      rw [hmotor m]
      refine ⟨fun ht hown hgroup => ?_, fun ht hheld => ?_, fun hs hr => ?_, fun ht hquiet => ?_⟩
      · rw [releaseMotor_of_free _ _ _ ht (not_or.2 ⟨hown, hgroup⟩)]
        exact MotorSeq.rampStep_of_not_ramping _ _ (.inl (show MotorState.stopped ≠ .stopping by decide))
      · rw [releaseMotor_of_held _ _ _ hheld]
        exact MotorSeq.rampStep_of_not_ramping _ _ (.inl (by simp [ht]))
      · rw [releaseMotor_eq_of_not_tripped _ _ _ (by simp [hs])]
        exact MotorSeq.rampStep_of_ramping _ _ hs hr
      · rw [releaseMotor_eq_of_not_tripped _ _ _ ht]
        exact MotorSeq.rampStep_of_not_ramping _ _ hquiet
    all_goals rw [hdue]
    case both => rw [if_pos ((hended .a).1 hA), if_pos ((hended .b).1 hB)]; rfl
    case one =>
      cases m with
      | a => rw [if_pos ((hended .a).1 h), if_neg (mt (hended .b).2 ho)]; rfl
      | b => rw [if_neg (mt (hended .a).2 ho), if_pos ((hended .b).1 h)]; rfl
    case neither => rw [if_neg (mt (hended .a).2 hA), if_neg (mt (hended .b).2 hB)]; rfl
  case rampEnd =>
    exact ⟨tripRampEnd m s.part, occurWith_head _ _ s rest rfl ha, rfl, tripRampEnd_inhibitLine m s.part,
      (Part.keeps.refl _ _).setSeq _⟩

end Sys2Proof.Machine
end

section
/-! Steps 3 and 4 of the sequencer's frame: creep speed, the breakaway allowance and the magnetizing ramps; then
MAGNETIZING_RAMP_FINISHED (R98, R100, R101, R113). -/

namespace Sys2Proof.Machine

/-! ## An order that the sequencer finishes -/

/-- The cell of an order finished OK and its entry emptied, in a part where the sequencer changed too. -/
structure OrderEnded (n : CellId) (o : OrderUnit) (p q : Part) : Prop where
  finished : CellFinished n .ok [] p q
  orders : q.orders = o
  raises : Part.raisesOnly [.order] p q
  stores : Part.storesOnly (cellAnswerByte n) p q
  keeps : Part.keeps [.exch, .attn, .orders, .seq] p q

/-- What the sequencer does before and after the finishing does not reach the cell. -/
theorem orderEnded_of_keeps {n : CellId} {o : OrderUnit} {p q : Part} (hwf : Memory.wf p.exch.mem = true)
    (h : Part.keeps [.seq] (finishCell n .ok [] (p.setOrders o)) q) : OrderEnded n o p q := by
  have hexch : q.exch = (finishCell n .ok [] (p.setOrders o)).exch := h .exch (by decide)
  have hattn : q.attn = (finishCell n .ok [] (p.setOrders o)).attn := h .attn (by decide)
  have hacq : q.acq = (finishCell n .ok [] (p.setOrders o)).acq := h .acq (by decide)
  have hwrites : p.Writes (cellAnswerByte n) (p.setOrders o) := (Part.Writes.refl _ p).setOrders o
  have hraises : Part.raisesOnly [.order] p (finishCell n .ok [] (p.setOrders o)) :=
    (Part.RaisesOrderAtMost.of_attn rfl).raisesOnly_finish n .ok []
  have hkeeps : Part.keeps [.exch, .attn, .orders, .seq] p (finishCell n .ok [] (p.setOrders o)) :=
    ((Part.keeps.refl _ p).setOrders o).finish n .ok []
  constructor
  case finished => exact (hwrites.finishedNow hwf n .ok []).congr (fun a _ => by rw [hexch])
  case orders => exact h .orders (by decide)
  case raises => 
    exact ⟨(congrArg Attention.routing hattn).trans hraises.1,
      fun src => by rw [← hraises.2 src, Part.raised, Part.raised, hattn]⟩
  case stores =>
    exact ((hwrites.finish n .ok [] (fun _ => cellResultByte.answer)).of_exch hexch hacq).storesOnly hwf
  case keeps => exact hkeeps.trans (h.mono (by decide))

/-- A change of the sequencer before the finishing reaches no other block. -/
theorem finishCell_setSeq_keeps (n : CellId) (o : OrderUnit) (p : Part) (v : Sequencer) :
    Part.keeps [.seq] (finishCell n .ok [] (p.setOrders o)) (finishCell n .ok [] ((p.setSeq v).setOrders o)) := by
  intro b hb
  cases b
  case seq => exact absurd (List.mem_singleton_self _) hb
  all_goals rfl

theorem finishRun_of_none (code : ResultCode) (p : Part) (h : p.orders.run = none) : finishRun code p = p := by
  simp only [finishRun, h]

theorem finishRun_of_some (code : ResultCode) (p : Part) (r : RunEntry) (h : p.orders.run = some r) :
    finishRun code p = finishCell r.cell code [] (p.setOrders { p.orders with run := none }) := by
  simp only [finishRun, h]

/-! ## Step 3: creep speed and the allowance -/

section StartStep

variable (p : Part)

/-- A group in STARTING at creep speed (R101). -/
def AtCreep : Prop := p.seq.group = .starting ∧ p.settings.creep ≤ p.acq.driveSpeed

/-- A group in STARTING below creep speed (R101). -/
def BelowCreep : Prop := p.seq.group = .starting ∧ p.acq.driveSpeed < p.settings.creep

/-- The group at creep speed, the RUN in flight not yet finished. -/
def startDone : Part := p.setSeq { p.seq with group := .running, allowance := none }

theorem startStep_of_creep (h : AtCreep p) : startStep p = (finishRun .ok (startDone p), false) :=
  (if_pos h.1).trans (if_pos h.2)

theorem startStep_of_below (h : BelowCreep p) :
    startStep p =
      (p.setSeq { p.seq with allowance := p.seq.allowance.map (fun n => n - 1) }, p.seq.allowance == some 1) := by
  have hkept : ∀ v, p.seq.allowance = v → p = p.setSeq { p.seq with allowance := v } := fun v hv => by
    rw [← hv]
    rfl
  refine ((if_pos h.1).trans (if_neg (not_le.2 h.2))).trans ?_
  cases ha : p.seq.allowance with
  | none => exact Prod.ext (hkept _ ha) rfl
  | some n => cases n with
    | zero => exact Prod.ext (hkept _ ha) rfl
    | succ n => exact Prod.ext rfl (by simp)

theorem startStep_of_other (hc : ¬ AtCreep p) (hb : ¬ BelowCreep p) : startStep p = (p, false) := by
  refine if_neg fun hs => ?_
  rcases le_or_gt p.settings.creep p.acq.driveSpeed with h | h
  · exact hc ⟨hs, h⟩
  · exact hb ⟨hs, h⟩

theorem not_below_of_creep (h : AtCreep p) : ¬ BelowCreep p := fun hb => absurd h.2 (not_le.2 hb.2)

/-- The three cases of step 3. -/
theorem startStep_cases (motive : Part × Bool → Prop)
    (creep : AtCreep p → motive (finishRun .ok (startDone p), false))
    (below : BelowCreep p → motive
      (p.setSeq { p.seq with allowance := p.seq.allowance.map (fun n => n - 1) }, p.seq.allowance == some 1))
    (other : ¬ AtCreep p → ¬ BelowCreep p → motive (p, false)) : motive (startStep p) := by
  by_cases hc : AtCreep p
  · rw [startStep_of_creep p hc]
    exact creep hc
  by_cases hb : BelowCreep p
  · rw [startStep_of_below p hb]
    exact below hb
  · rw [startStep_of_other p hc hb]
    exact other hc hb

theorem startStep_motor : (startStep p).1.seq.motor = p.seq.motor :=
  startStep_cases p (fun r => r.1.seq.motor = p.seq.motor)
    (fun _ => by rw [finishRun_seq]; rfl) (fun _ => rfl) (fun _ _ => rfl)

theorem startStep_settings : (startStep p).1.settings = p.settings :=
  startStep_cases p (fun r => r.1.settings = p.settings)
    (fun _ => finishRun_settings _ _) (fun _ => rfl) (fun _ _ => rfl)

theorem startStep_idle_iff : (startStep p).1.seq.group = .idle ↔ p.seq.group = .idle :=
  startStep_cases p (fun r => r.1.seq.group = .idle ↔ p.seq.group = .idle)
    (fun h => by rw [finishRun_seq]; simp [startDone, h.1]) (fun _ => Iff.rfl) (fun _ _ => Iff.rfl)

theorem startStep_failed_iff :
    (startStep p).2 = true ↔ BelowCreep p ∧ p.seq.allowance = some 1 :=
  startStep_cases p (fun r => r.2 = true ↔ BelowCreep p ∧ p.seq.allowance = some 1)
    (fun h => by simp [not_below_of_creep p h]) (fun h => by simp [h]) (fun _ h => by simp [h])

end StartStep

/-! ## Step 4: the magnetizing ramps -/

theorem MotorSeq.magnetized_iff (time : Nat) (x : MotorSeq) :
    x.magnetized time = true ↔ x.state = .magnetizing ∧ time ≤ x.stepCount := by
  simp only [MotorSeq.magnetized, Bool.and_eq_true, beq_iff_eq, decide_eq_true_eq]

/-- The motors that magnetize (R100). -/
def Sequencer.waiting (q : Sequencer) : List MotorSeq :=
  [q.motor.a, q.motor.b].filter (fun x => x.state == .magnetizing)

section Waiting

variable (time : Nat) (q : Sequencer)

theorem mem_waiting_iff (x : MotorSeq) :
    x ∈ q.waiting ↔ ∃ m, q.motor.get m = x ∧ x.state = .magnetizing := by
  simp only [Sequencer.waiting, List.mem_filter, List.mem_cons, List.not_mem_nil, or_false, beq_iff_eq]
  refine ⟨?_, ?_⟩
  · rintro ⟨rfl | rfl, hx⟩
    · exact ⟨.a, rfl, hx⟩
    · exact ⟨.b, rfl, hx⟩
  · rintro ⟨m, rfl, hx⟩
    cases m with
    | a => exact ⟨.inl rfl, hx⟩
    | b => exact ⟨.inr rfl, hx⟩

theorem waiting_any_iff :
    q.waiting.any (fun x => x.magnetized time) = true ↔ ∃ m, (q.motor.get m).magnetized time = true := by
  simp only [List.any_eq_true, mem_waiting_iff]
  exact ⟨fun ⟨_, ⟨m, hm, _⟩, hx⟩ => ⟨m, hm ▸ hx⟩,
    fun ⟨m, hx⟩ => ⟨_, ⟨m, rfl, ((MotorSeq.magnetized_iff _ _).1 hx).1⟩, hx⟩⟩

theorem waiting_all_iff :
    q.waiting.all (fun x => x.magnetized time) = true ↔
      ∀ m, (q.motor.get m).state = .magnetizing → (q.motor.get m).magnetized time = true := by
  simp only [List.all_eq_true, mem_waiting_iff]
  exact ⟨fun h m hm => h _ ⟨m, rfl, hm⟩, fun h _ ⟨m, hm, hx⟩ => hm ▸ h m (hm ▸ hx)⟩

/-- The end of a magnetizing ramp is due when some motor's is finished, and in an IDLE group when all are
(R100). -/
theorem rampFinished_iff :
    rampFinished time q = true ↔ (∃ m, (q.motor.get m).magnetized time = true) ∧
      (q.group = .idle → ∀ m, (q.motor.get m).state = .magnetizing → (q.motor.get m).magnetized time = true) := by
  rw [← waiting_any_iff, ← waiting_all_iff]
  have hcases : rampFinished time q =
      if q.group = .idle then !q.waiting.isEmpty && q.waiting.all (fun x => x.magnetized time)
      else q.waiting.any (fun x => x.magnetized time) := rfl
  rw [hcases]
  split
  next hidle =>
    cases q.waiting with
    | nil => simp
    | cons x xs =>
      simp only [hidle, List.any_cons, List.all_cons, List.isEmpty_cons, forall_const, Bool.not_false,
        Bool.true_and, Bool.and_eq_true, Bool.or_eq_true]
      exact ⟨fun h => ⟨.inl h.1, h⟩, fun h => h.2⟩
  next hbusy => simp [hbusy]

end Waiting

section Start

variable (p : Part)

theorem sequencerStart_motor (m : Motor) :
    (sequencerStart p).part.seq.motor.get m =
      (p.seq.motor.get m).magnetizingStep p.settings.fluxRef p.settings.magnetizingTime := by
  rw [← startStep_settings p, ← startStep_motor p]
  exact PerMotor.get_map _ _ m

theorem sequencerStart_due :
    (sequencerStart p).due =
      (if rampFinished p.settings.magnetizingTime (sequencerStart p).part.seq then
        [Work.magnetizingRampFinished] else []) ++ [Work.sequencerLoop (startStep p).2] := by
  rw [← startStep_settings p]
  rfl

/-- Outside the sequencer, step 4 keeps what step 3 left. -/
theorem sequencerStart_keeps : Part.keeps [.seq] (startStep p).1 (sequencerStart p).part :=
  (Part.keeps.refl _ _).setSeq _

theorem sequencerStart_seq :
    (sequencerStart p).part.seq = { (startStep p).1.seq with motor := (sequencerStart p).part.seq.motor } := rfl

theorem sequencerStart_seq_of_creep (h : AtCreep p) :
    (sequencerStart p).part.seq = { p.seq with
      motor := (sequencerStart p).part.seq.motor, group := .running, allowance := none } := by
  rw [sequencerStart_seq, startStep_of_creep p h, finishRun_seq]
  rfl

theorem sequencerStart_seq_of_below (h : BelowCreep p) :
    (sequencerStart p).part.seq = { p.seq with
      motor := (sequencerStart p).part.seq.motor
      allowance := p.seq.allowance.map (fun n => n - 1) } := by
  rw [sequencerStart_seq, startStep_of_below p h]
  rfl

theorem sequencerStart_seq_of_other (hc : ¬ AtCreep p) (hb : ¬ BelowCreep p) :
    (sequencerStart p).part.seq = { p.seq with motor := (sequencerStart p).part.seq.motor } := by
  rw [sequencerStart_seq, startStep_of_other p hc hb]

/-- With no RUN to finish, steps 3 and 4 stay within the sequencer. -/
theorem sequencerStart_keeps_of_no_run (h : ¬ AtCreep p ∨ p.orders.run = none) :
    Part.keeps [.seq] p (sequencerStart p).part := by
  refine Part.keeps.trans ?_ (sequencerStart_keeps p)
  refine startStep_cases p (fun r => Part.keeps [.seq] p r.1) (fun hc => ?_)
    (fun _ => (Part.keeps.refl _ p).setSeq _) (fun _ _ => Part.keeps.refl _ p)
  rw [finishRun_of_none .ok (startDone p) (h.resolve_left (not_not.2 hc))]
  exact (Part.keeps.refl _ p).setSeq _

/-- At creep speed a RUN in flight is finished OK (R101). -/
theorem sequencerStart_ended (hwf : Memory.wf p.exch.mem = true) (hc : AtCreep p) (r : RunEntry)
    (hr : p.orders.run = some r) :
    OrderEnded r.cell { p.orders with run := none } p (sequencerStart p).part := by
  refine orderEnded_of_keeps hwf (Part.keeps.trans ?_ (sequencerStart_keeps p))
  rw [startStep_of_creep p hc, finishRun_of_some .ok (startDone p) r hr]
  exact finishCell_setSeq_keeps _ _ p _

end Start

/-! ## MAGNETIZING_RAMP_FINISHED -/

section Finished

variable (p : Part)

/-- A motor of an IDLE group that magnetizes goes to RUNNING (R100). -/
def MotorSeq.started (x : MotorSeq) : MotorSeq := if x.state = .magnetizing then x.toRunning else x

/-- A motor whose magnetizing ramp is finished goes to RUNNING (R113). -/
def MotorSeq.rejoined (time : Nat) (x : MotorSeq) : MotorSeq := if x.magnetized time then x.toRunning else x

theorem magnetizingRampFinished_of_idle (h : p.seq.group = .idle) :
    magnetizingRampFinished p = p.setSeq { p.seq with
      motor := p.seq.motor.map MotorSeq.started, group := .starting, reference := p.acq.driveSpeed
      integrator := 0, remainder := 0, demand := 0
      allowance := some (breakawayFrames p.settings.breakawayCode) } := if_pos h

/-- The rejoined motors RUNNING, the RUN in flight not yet looked at. -/
def rejoinsDone : Part :=
  p.setSeq { p.seq with motor := p.seq.motor.map (MotorSeq.rejoined p.settings.magnetizingTime) }

theorem magnetizingRampFinished_of_busy (h : p.seq.group ≠ .idle) :
    magnetizingRampFinished p =
      match p.orders.run with
      | some r => if allRunning r.joining (rejoinsDone p).seq then finishRun .ok (rejoinsDone p) else rejoinsDone p
      | none => rejoinsDone p := if_neg h

/-- The RUN in flight waits for a motor that it is bringing in, or there is none. -/
theorem magnetizingRampFinished_of_waiting (h : p.seq.group ≠ .idle)
    (hr : ∀ r, p.orders.run = some r →
      ∃ m, r.joining.get m = true ∧ (rejoinsDone p).motorState m ≠ .running) :
    magnetizingRampFinished p = rejoinsDone p := by
  rw [magnetizingRampFinished_of_busy p h]
  cases hrun : p.orders.run with
  | none => rfl
  | some r =>
    obtain ⟨m, hm, hnot⟩ := hr r hrun
    exact if_neg fun hall => hnot ((allRunning_iff r.joining (rejoinsDone p)).1 hall m hm)

theorem magnetizingRampFinished_of_joined (h : p.seq.group ≠ .idle) (r : RunEntry)
    (hr : p.orders.run = some r)
    (hall : ∀ m, r.joining.get m = true → (rejoinsDone p).motorState m = .running) :
    magnetizingRampFinished p =
      finishCell r.cell .ok [] ((rejoinsDone p).setOrders { p.orders with run := none }) := by
  rw [magnetizingRampFinished_of_busy p h, hr]
  exact (if_pos ((allRunning_iff r.joining (rejoinsDone p)).2 hall)).trans
    (finishRun_of_some .ok (rejoinsDone p) r hr)

theorem magnetizingRampFinished_seq_of_busy (h : p.seq.group ≠ .idle) :
    (magnetizingRampFinished p).seq = (rejoinsDone p).seq := by
  rw [magnetizingRampFinished_of_busy p h]
  split
  · split
    · exact finishRun_seq _ _
    · rfl
  · rfl

/-- A motor after the end of the ramps, in any group. -/
theorem magnetizingRampFinished_motor (m : Motor) :
    let x := p.seq.motor.get m
    (magnetizingRampFinished p).seq.motor.get m =
      if x.state = .magnetizing ∧ (p.seq.group = .idle ∨ p.settings.magnetizingTime ≤ x.stepCount) then
        { x with state := .running, ramp := 0, ramping := false }
      else x := by
  intro x
  by_cases h : p.seq.group = .idle
  · rw [magnetizingRampFinished_of_idle p h]
    simp only [h, true_or, and_true]
    exact PerMotor.get_map _ _ m
  · rw [magnetizingRampFinished_seq_of_busy p h]
    simp only [h, false_or, ← MotorSeq.magnetized_iff]
    exact PerMotor.get_map _ _ m

theorem magnetizingRampFinished_ended (hwf : Memory.wf p.exch.mem = true) (h : p.seq.group ≠ .idle)
    (r : RunEntry) (hr : p.orders.run = some r)
    (hall : ∀ m, r.joining.get m = true → (rejoinsDone p).motorState m = .running) :
    OrderEnded r.cell { p.orders with run := none } p (magnetizingRampFinished p) := by
  refine orderEnded_of_keeps hwf ?_
  rw [magnetizingRampFinished_of_joined p h r hr hall]
  exact finishCell_setSeq_keeps _ _ p _

end Finished

/-- Settles O44: the two steps by the case of step 3, then the end of the ramps by the group's state. -/
theorem magnetizingFinished : Obligations.MagnetizingFinished := by
  refine ⟨fun p hwf => ?steps, fun s rest ha hwf => ?ended⟩
  case steps =>
    intro work q st creep waiting ready finished
    have hidle : (sequencerStart p).part.seq.group = .idle ↔ p.seq.group = .idle := startStep_idle_iff p
    have hfinished : rampFinished p.settings.magnetizingTime (sequencerStart p).part.seq = true ↔ finished := by
      rw [rampFinished_iff, hidle]
      simp only [MotorSeq.magnetized_iff]
      rfl
    refine ⟨sequencerStart_motor p, sequencerStart_seq_of_creep p, sequencerStart_seq_of_below p,
      sequencerStart_seq_of_other p, fun r hc hr => ?_, sequencerStart_keeps_of_no_run p,
      (startStep p).2, startStep_failed_iff p, fun h => ?_, fun h => ?_⟩
    · have hend := sequencerStart_ended p hwf hc r hr
      exact ⟨hend.finished, hend.orders, hend.raises, hend.stores, hend.keeps⟩
    · refine (sequencerStart_due p).trans ?_
      rw [if_pos (hfinished.2 h)]
      rfl
    · refine (sequencerStart_due p).trans ?_
      rw [if_neg (mt hfinished.1 h)]
      rfl
  case ended =>
    intro time
    refine ⟨magnetizingRampFinished s.part, occurWith_head _ _ s rest rfl ha,
      magnetizingRampFinished_motor s.part, fun h => ?_, fun h => ⟨?_, fun r hr hall => ?_, fun hr => ?_⟩⟩
    · rw [magnetizingRampFinished_of_idle s.part h]
      exact ⟨rfl, (Part.keeps.refl _ _).setSeq _⟩
    · rw [magnetizingRampFinished_seq_of_busy s.part h]
      rfl
    · rw [magnetizingRampFinished_seq_of_busy s.part h] at hall
      have hend := magnetizingRampFinished_ended s.part hwf h r hr hall
      exact ⟨hend.finished, hend.orders, hend.raises, hend.stores, hend.keeps⟩
    · rw [magnetizingRampFinished_seq_of_busy s.part h] at hr
      rw [magnetizingRampFinished_of_waiting s.part h hr]
      exact (Part.keeps.refl _ _).setSeq _

end Sys2Proof.Machine
end

section
/-! Steps 5 to 7 of the sequencer's frame: the reference ramp, the speed loop within the gear caps, the end of a
stop, and the published flux reference (R96, R98, R102 to R106). -/

namespace Sys2Proof.Machine

/-! ## Step 5: the reference ramp -/

section ReferenceStep

variable (q : Sequencer) (target : Int) (up down : Nat)

/-- The rate toward the target plus the remainder that a movement in the same direction carries (R102). -/
def rampSum : Nat :=
  let rising : Bool := q.reference < target
  (if rising then up else down) + (if rising = q.rising then q.remainder else 0)

theorem referenceStep_at_target (h : q.reference = target) :
    referenceStep q target up down = (target, 0, q.rising) := if_pos h

theorem referenceStep_arriving (h : q.reference ≠ target)
    (ha : (target - q.reference).natAbs ≤ rampSum q target up down / 1000) :
    referenceStep q target up down = (target, 0, decide (q.reference < target)) := (if_neg h).trans (if_pos ha)

theorem referenceStep_moving (h : q.reference ≠ target)
    (hm : ¬ (target - q.reference).natAbs ≤ rampSum q target up down / 1000) :
    referenceStep q target up down =
      (q.reference + (if decide (q.reference < target) then 1 else -1) * (rampSum q target up down / 1000 : Nat),
        rampSum q target up down % 1000, decide (q.reference < target)) := by
  refine ((if_neg h).trans (if_neg hm)).trans (Prod.ext ?_ rfl)
  show (if decide (q.reference < target) then q.reference + (rampSum q target up down / 1000 : Nat)
    else q.reference - (rampSum q target up down / 1000 : Nat)) = _
  split
  · rw [one_mul]
  · rw [neg_one_mul, sub_eq_add_neg]

/-- A reference that does not arrive comes nearer by the step, and not past the target. -/
theorem referenceStep_moving_distance (h : q.reference ≠ target)
    (hm : ¬ (target - q.reference).natAbs ≤ rampSum q target up down / 1000) :
    (referenceStep q target up down).1 ≠ target ∧ (target - q.reference).natAbs =
      (target - (referenceStep q target up down).1).natAbs + rampSum q target up down / 1000 := by
  rw [referenceStep_moving q target up down h hm]
  generalize rampSum q target up down / 1000 = step at hm
  dsimp only
  by_cases hup : q.reference < target
  · rw [decide_eq_true hup, if_pos rfl]
    omega
  · rw [decide_eq_false hup, if_neg Bool.false_ne_true]
    omega

theorem referenceStep_rising (h : q.reference ≠ target) :
    (referenceStep q target up down).2.2 = decide (q.reference < target) := by
  by_cases ha : (target - q.reference).natAbs ≤ rampSum q target up down / 1000
  · rw [referenceStep_arriving q target up down h ha]
  · rw [referenceStep_moving q target up down h ha]

/-- The reference comes to its target, or nearer to it by the step. -/
theorem referenceStep_approaches :
    (referenceStep q target up down).1 = target ∨ (target - q.reference).natAbs =
      (target - (referenceStep q target up down).1).natAbs + rampSum q target up down / 1000 := by
  by_cases h : q.reference = target
  · exact .inl (congrArg Prod.fst (referenceStep_at_target q target up down h))
  by_cases ha : (target - q.reference).natAbs ≤ rampSum q target up down / 1000
  · exact .inl (congrArg Prod.fst (referenceStep_arriving q target up down h ha))
  · exact .inr (referenceStep_moving_distance q target up down h ha).2

/-- At its target the reference has no remainder. -/
theorem referenceStep_remainder_at_target (hr : (referenceStep q target up down).1 = target) :
    (referenceStep q target up down).2.1 = 0 := by
  by_cases h : q.reference = target
  · rw [referenceStep_at_target q target up down h]
  by_cases ha : (target - q.reference).natAbs ≤ rampSum q target up down / 1000
  · rw [referenceStep_arriving q target up down h ha]
  · exact absurd hr (referenceStep_moving_distance q target up down h ha).1

theorem rampSum_cases :
    rampSum q target up down = (if q.reference < target then up else down) ∨
      rampSum q target up down = (if q.reference < target then up else down) + q.remainder := by
  unfold rampSum
  simp only [decide_eq_true_eq]
  split <;> split <;> simp

end ReferenceStep

/-! ## Step 5: the speed loop -/

theorem clampTo_le {lo hi : Int} (h : lo ≤ hi) (x : Int) : clampTo lo hi x ≤ hi :=
  max_le h (min_le_left _ _)

theorem le_clampTo (lo hi x : Int) : lo ≤ clampTo lo hi x := le_max_left _ _

theorem GroupState.loopRuns_iff (g : GroupState) :
    GroupState.loopRuns g = true ↔ g = .starting ∨ g = .running ∨ g = .stopping := by
  cases g <;> decide

section SpeedLoop

variable (p : Part)

/-- The target of the reference: the setpoint, or 0 while the group stops (R102). -/
def loopTarget : Int := if p.seq.group = .stopping then 0 else p.seq.setpoint

/-- The reference ramp in the frame of the part. -/
def loopRamp : Int × Nat × Bool :=
  referenceStep p.seq (loopTarget p) p.settings.acceleration p.settings.deceleration

/-- The speed error of R103, after the reference ramp. -/
def loopError : Int := saturate ((loopRamp p).1 - p.acq.driveSpeed)

/-- The group-limited flag holds the integrator against the error (R104). -/
def IntegratorHeld : Prop :=
  (p.allot.groupLimited = 1 ∧ 0 < loopError p) ∨ (p.allot.groupLimited = 2 ∧ loopError p < 0)

theorem speedLoop_integrator_of_held (h : IntegratorHeld p) :
    (speedLoop p).seq.integrator = p.seq.integrator := if_pos h

theorem speedLoop_integrator_of_free (h : ¬ IntegratorHeld p) :
    (speedLoop p).seq.integrator = clampTo (-p.settings.capRegenerating) p.settings.capMotoring
      (p.seq.integrator + roundedShift 16 (p.settings.kis * loopError p)) := if_neg h

theorem speedLoop_demand :
    (speedLoop p).seq.demand = clampTo (-p.settings.capRegenerating) p.settings.capMotoring
      (roundedShift 12 (p.settings.kps * loopError p) + (speedLoop p).seq.integrator) := rfl

end SpeedLoop

/-! ## Step 6: the end of a stop -/

/-- An ordered stop is complete: the reference at 0 and the kiln below standstill (R106). -/
def StopComplete (p : Part) : Prop :=
  p.seq.group = .stopping ∧ p.seq.reference = 0 ∧ (p.acq.driveSpeed.natAbs : Int) < p.settings.standstill

/-- A motor at the end of a stop. -/
def MotorSeq.stopEnded (x : MotorSeq) : MotorSeq := if x.state = .stopping then x.atRest .stopped else x

/-- The drive at the end of a stop, the STOP in flight not yet finished. -/
def stopDone (p : Part) : Part :=
  p.setSeq { p.seq.loopCleared with group := .idle, motor := p.seq.motor.map MotorSeq.stopEnded }

theorem stopStep_of_complete (p : Part) (h : StopComplete p) : stopStep p = finishStop .ok (stopDone p) :=
  if_pos h

theorem stopStep_of_moving (p : Part) (h : ¬ StopComplete p) : stopStep p = p := if_neg h

theorem finishStop_of_none (code : ResultCode) (p : Part) (h : p.orders.stop = none) : finishStop code p = p := by
  simp only [finishStop, h]

theorem finishStop_of_some (code : ResultCode) (p : Part) (n : CellId) (h : p.orders.stop = some n) :
    finishStop code p = finishCell n code [] (p.setOrders { p.orders with stop := none }) := by
  simp only [finishStop, h]

/-! ## Steps 5 to 7 -/

section Loop

variable (failed : Bool) (p : Part)

/-- Step 7 after steps 5 and 6. -/
theorem sequencerLoop_part :
    (sequencerLoop failed p).part =
      let r := stopStep (if GroupState.loopRuns p.seq.group then speedLoop p else p)
      r.setSeq { r.seq with motor := r.seq.motor.map (fun x => x.published p.settings.fluxRef) } := by
  have hsettings : ∀ r : Part, (stopStep r).settings = r.settings := fun r => by
    by_cases h : StopComplete r
    · rw [stopStep_of_complete r h]
      exact finishStop_settings .ok (stopDone r)
    · rw [stopStep_of_moving r h]
  have hlooped : (if GroupState.loopRuns p.seq.group then speedLoop p else p).settings = p.settings := by
    split <;> rfl
  rw [← hlooped, ← hsettings]
  rfl

theorem sequencerLoop_of_quiet (h : ¬ GroupState.loopRuns p.seq.group = true) :
    (sequencerLoop failed p).part =
      p.setSeq { p.seq with motor := p.seq.motor.map (fun x => x.published p.settings.fluxRef) } := by
  have hmoving : ¬ StopComplete p := fun hc => h (by rw [hc.1]; rfl)
  rw [sequencerLoop_part, if_neg h, stopStep_of_moving p hmoving]

theorem sequencerLoop_of_moving (h : GroupState.loopRuns p.seq.group = true) (hm : ¬ StopComplete (speedLoop p)) :
    (sequencerLoop failed p).part = p.setSeq { (speedLoop p).seq with
      motor := p.seq.motor.map (fun x => x.published p.settings.fluxRef) } := by
  rw [sequencerLoop_part, if_pos h, stopStep_of_moving _ hm]
  rfl

theorem sequencerLoop_of_complete (hc : StopComplete (speedLoop p)) :
    (sequencerLoop failed p).part = (finishStop .ok (stopDone (speedLoop p))).setSeq { p.seq.loopCleared with
      group := .idle, rising := (loopRamp p).2.2
      motor := p.seq.motor.map (fun x => x.stopEnded.published p.settings.fluxRef) } := by
  have hgroup : p.seq.group = .stopping := hc.1
  have h : GroupState.loopRuns p.seq.group = true := by rw [hgroup]; rfl
  rw [sequencerLoop_part, if_pos h, stopStep_of_complete _ hc]
  dsimp only
  rw [finishStop_seq]
  rfl

/-- The loop's reference, remainder and direction are those of the ramp, also at the end of a stop. -/
theorem sequencerLoop_ramp (h : GroupState.loopRuns p.seq.group = true) :
    let q := (sequencerLoop failed p).part
    (q.seq.reference, q.seq.remainder, q.seq.rising) = loopRamp p := by
  intro q
  by_cases hc : StopComplete (speedLoop p)
  · have hq : q = _ := sequencerLoop_of_complete failed p hc
    have hzero : (loopRamp p).1 = 0 := hc.2.1
    have htarget : loopTarget p = 0 := if_pos hc.1
    have hrem : (loopRamp p).2.1 = 0 := referenceStep_remainder_at_target _ _ _ _ (hzero.trans htarget.symm)
    rw [hq]
    exact Prod.ext hzero.symm (Prod.ext hrem.symm rfl)
  · have hq : q = _ := sequencerLoop_of_moving failed p h hc
    rw [hq]
    rfl

/-- Whether the stop is complete shows on the reference that the frame leaves. -/
theorem stopComplete_iff :
    StopComplete (speedLoop p) ↔ p.seq.group = .stopping ∧ (sequencerLoop failed p).part.seq.reference = 0 ∧
      (p.acq.driveSpeed.natAbs : Int) < p.settings.standstill := by
  refine and_congr_right fun hgroup => ?_
  have h : GroupState.loopRuns p.seq.group = true := by rw [show p.seq.group = .stopping from hgroup]; rfl
  have hramp : (sequencerLoop failed p).part.seq.reference = (loopRamp p).1 :=
    congrArg Prod.fst (sequencerLoop_ramp failed p h)
  rw [hramp]
  rfl

/-- The demand lies within the caps, at the end of a stop and before it (R104). -/
theorem sequencerLoop_demand_bounds (h : GroupState.loopRuns p.seq.group = true)
    (hmot : 0 ≤ p.settings.capMotoring) (hreg : 0 ≤ p.settings.capRegenerating) :
    (sequencerLoop failed p).part.seq.demand ≤ p.settings.capMotoring ∧
      -p.settings.capRegenerating ≤ (sequencerLoop failed p).part.seq.demand := by
  by_cases hc : StopComplete (speedLoop p)
  · rw [sequencerLoop_of_complete failed p hc]
    exact ⟨hmot, neg_nonpos.2 hreg⟩
  · rw [sequencerLoop_of_moving failed p h hc]
    exact ⟨clampTo_le (by omega) _, le_clampTo _ _ _⟩

theorem sequencerLoop_setpoint (h : GroupState.loopRuns p.seq.group = true) :
    (sequencerLoop failed p).part.seq.setpoint = p.seq.setpoint := by
  by_cases hc : StopComplete (speedLoop p)
  · rw [sequencerLoop_of_complete failed p hc]
    rfl
  · rw [sequencerLoop_of_moving failed p h hc]
    rfl

/-- At the end of a stop the STOP in flight is finished OK (R106). -/
theorem sequencerLoop_ended (hwf : Memory.wf p.exch.mem = true) (hc : StopComplete (speedLoop p)) (n : CellId)
    (hn : p.orders.stop = some n) :
    OrderEnded n { p.orders with stop := none } p (sequencerLoop failed p).part := by
  refine orderEnded_of_keeps hwf ?_
  rw [sequencerLoop_of_complete failed p hc, finishStop_of_some .ok (stopDone (speedLoop p)) n hn]
  exact (finishCell_setSeq_keeps _ _ p _).setSeq _

theorem sequencerLoop_keeps_of_no_stop (hc : StopComplete (speedLoop p)) (hn : p.orders.stop = none) :
    Part.keeps [.seq] p (sequencerLoop failed p).part := by
  rw [sequencerLoop_of_complete failed p hc, finishStop_of_none .ok (stopDone (speedLoop p)) hn]
  exact (((Part.keeps.refl _ p).setSeq _).setSeq _).setSeq _

end Loop

/-- Settles O45: the ramp's values hold of every running loop; the others go by whether a stop is complete. -/
theorem speedLoopBounds : Obligations.SpeedLoopBounds := by
  refine ⟨fun failed p hruns hmot hreg => ?bounds, fun failed p hwf => ?values⟩
  case bounds =>
    intro q target rate
    have h := (GroupState.loopRuns_iff p.seq.group).2 hruns
    have hramp : (q.seq.reference, q.seq.remainder, q.seq.rising) = loopRamp p := sequencerLoop_ramp failed p h
    have hreference : q.seq.reference = (loopRamp p).1 := congrArg Prod.fst hramp
    have hremainder : q.seq.remainder = (loopRamp p).2.1 := congrArg (fun r => r.2.1) hramp
    have happroach : q.seq.reference = target ∨ (target - p.seq.reference).natAbs =
        (target - q.seq.reference).natAbs +
          rampSum p.seq target p.settings.acceleration p.settings.deceleration / 1000 := by
      rw [hreference]
      exact referenceStep_approaches _ _ _ _
    have hsum : _ = rate ∨ _ = rate + p.seq.remainder :=
      rampSum_cases p.seq target p.settings.acceleration p.settings.deceleration
    have hbounds := sequencerLoop_demand_bounds failed p h hmot hreg
    refine ⟨hbounds.1, hbounds.2, hremainder ▸ referenceStep_remainder _ _ _ _,
      sequencerLoop_setpoint failed p h, ?_, ?_⟩
    · exact happroach.elim (fun h => by rw [h]; omega) (fun h => by rw [h]; omega)
    · refine happroach.imp_right fun hd => hsum.imp (fun hs => ?_) (fun hs => ?_) <;> rw [hd, hs]
  case values =>
    intro q st runs target up sum arrives error held complete shown
    have hruns : GroupState.loopRuns p.seq.group = true ↔ runs := GroupState.loopRuns_iff p.seq.group
    have hcomplete : StopComplete (speedLoop p) ↔ complete := stopComplete_iff failed p
    have hramp : runs → (q.seq.reference, q.seq.remainder, q.seq.rising) = loopRamp p := fun h =>
      sequencerLoop_ramp failed p (hruns.2 h)
    have hshown : shown = fun x => x.published st.fluxRef := funext fun x => by
      rcases x with ⟨state, _⟩
      cases state <;> rfl
    refine ⟨rfl, fun h => ?ramp, fun h hnot => ?moving, fun hc => ?ended, fun h => ?quiet⟩
    case ramp =>
      have hparts : ∀ {r n b}, loopRamp p = (r, n, b) →
          q.seq.reference = r ∧ q.seq.remainder = n ∧ q.seq.rising = b := fun he => by
        simpa only [Prod.mk.injEq] using (hramp h).trans he
      refine ⟨fun hat => hparts (referenceStep_at_target _ _ _ _ hat), fun hne => ?_, fun hne ha => ?_,
        fun hne hm => ?_⟩
      · exact (congrArg (fun r => r.2.2) (hramp h)).trans (referenceStep_rising _ _ _ _ hne)
      · obtain ⟨href, hrem, -⟩ := hparts (referenceStep_arriving _ _ _ _ hne ha)
        exact ⟨href, hrem⟩
      · obtain ⟨href, hrem, -⟩ := hparts (referenceStep_moving _ _ _ _ hne hm)
        exact ⟨href, hrem⟩
    case moving =>
      have hq : q = _ := sequencerLoop_of_moving failed p (hruns.2 h) (mt hcomplete.1 hnot)
      have herror : error = loopError p := by
        rw [loopError, ← hramp h]
      have hheld : held ↔ IntegratorHeld p := by
        simp only [held, herror]
        rfl
      rw [hheld, herror, hshown, hq]
      exact ⟨speedLoop_integrator_of_held p, speedLoop_integrator_of_free p, speedLoop_demand p,
        PerMotor.get_map _ _, rfl, (Part.keeps.refl _ p).setSeq _⟩
    case ended =>
      have hq : q = _ := sequencerLoop_of_complete failed p (hcomplete.2 hc)
      refine ⟨fun m => ?_, ?_, sequencerLoop_keeps_of_no_stop failed p (hcomplete.2 hc), fun n hn => ?_⟩
      · rw [hshown, hq]
        refine (PerMotor.get_map _ _ m).trans ?_
        rw [MotorSeq.stopEnded, Part.motorState]
        split <;> rfl
      · rw [hq]
        rfl
      · have hend := sequencerLoop_ended failed p hwf (hcomplete.2 hc) n hn
        exact ⟨hend.finished, hend.orders, hend.raises, hend.stores, hend.keeps⟩
    case quiet =>
      have hq : q = _ := sequencerLoop_of_quiet failed p (mt hruns.1 h)
      rw [hq, hshown]
      exact ⟨rfl, (Part.keeps.refl _ p).setSeq _⟩

end Sys2Proof.Machine
end

section
/-! Dividing the demand: each motor's part by its magnitude in the direction of the frame (R127 to R129). -/

namespace Sys2Proof.Machine

/-! ## Parts of one sign -/

/-- The direction of the frame as a sign: motoring for a demand of 0 or more (R124). -/
def frameSign (d : Int) : Int := if 0 ≤ d then 1 else -1

theorem frameSign_of_nonneg {d : Int} (h : 0 ≤ d) : frameSign d = 1 := if_pos h

theorem frameSign_of_neg {d : Int} (h : d < 0) : frameSign d = -1 := if_neg (by omega)

/-- A share from 0 to 256 of a demand lies between 0 and the demand, and so does the rest (R127). -/
theorem demand_parts_signed (d : Int) {shareA : Nat} (hs : shareA ≤ 256) :
    ∃ a b : Int, 0 ≤ a ∧ 0 ≤ b ∧ roundedShift 8 (d * shareA) = frameSign d * a ∧
      d - roundedShift 8 (d * shareA) = frameSign d * b := by
  have hs' : (shareA : Int) ≤ 256 := by exact_mod_cast hs
  have hs0 : (0 : Int) ≤ shareA := Int.natCast_nonneg _
  have hshift : roundedShift 8 (d * shareA) = (d * shareA + 128) / 256 := rfl
  rcases le_or_gt 0 d with hd | hd
  · have hlow : 0 ≤ d * shareA := mul_nonneg hd hs0
    have hhigh : d * shareA ≤ d * 256 := mul_le_mul_of_nonneg_left hs' hd
    rw [frameSign_of_nonneg hd, hshift]
    exact ⟨_, _, by omega, by omega, (one_mul _).symm, (one_mul _).symm⟩
  · have hhigh : d * shareA ≤ 0 := mul_nonpos_of_nonpos_of_nonneg hd.le hs0
    have hlow : d * 256 ≤ d * shareA := mul_le_mul_of_nonpos_left hs' hd.le
    rw [frameSign_of_neg hd, hshift]
    exact ⟨-((d * shareA + 128) / 256), -(d - (d * shareA + 128) / 256), by omega, by omega, by omega, by omega⟩

/-- A part clamped to its limit, by its magnitude (R128). -/
theorem clampShare_signed (d : Int) {x limit : Int} (hx : 0 ≤ x) (hl : 0 ≤ limit) :
    clampShare (frameSign d * x) limit =
      { part := frameSign d * min x limit, excess := x - min x limit, room := limit - min x limit } := by
  rcases le_or_gt 0 d with hd | hd
  · simp only [frameSign_of_nonneg hd, clampShare, clampTo, Share.mk.injEq]
    omega
  · simp only [frameSign_of_neg hd, clampShare, clampTo, Share.mk.injEq]
    omega

/-! ## The references by their magnitudes -/

/-- The magnitude of a motor's reference: its own part within its limit, with what its room takes of the other
motor's excess (R128). -/
def sharedMagnitude (own other limit otherLimit : Int) : Int :=
  min own limit + min (other - min other otherLimit) (limit - min own limit)

section Magnitudes

variable {own other limit otherLimit : Int}

theorem sharedMagnitude_nonneg (ho : 0 ≤ own) (hl : 0 ≤ limit) :
    0 ≤ sharedMagnitude own other limit otherLimit := by
  unfold sharedMagnitude
  omega

theorem sharedMagnitude_le : sharedMagnitude own other limit otherLimit ≤ limit := by
  unfold sharedMagnitude
  omega

theorem sharedMagnitude_of_le (ho : own ≤ limit) (hother : other ≤ otherLimit) :
    sharedMagnitude own other limit otherLimit = own := by
  unfold sharedMagnitude
  omega

/-- Together the references take the demand or fill both limits. -/
theorem sharedMagnitude_add :
    sharedMagnitude own other limit otherLimit + sharedMagnitude other own otherLimit limit =
      min (own + other) (limit + otherLimit) := by
  unfold sharedMagnitude
  omega

end Magnitudes

/-- The division of a demand: magnitudes in the direction of the frame, and what is beyond both limits together
remains (R127 to R129). -/
theorem divideDemand_signed (d : Int) {limitA limitB : Int} {shareA : Nat} (hs : shareA ≤ 256)
    (ha : 0 ≤ limitA) (hb : 0 ≤ limitB) :
    ∃ a b : Int, 0 ≤ a ∧ 0 ≤ b ∧ roundedShift 8 (d * shareA) = frameSign d * a ∧
      d - roundedShift 8 (d * shareA) = frameSign d * b ∧
      divideDemand d shareA limitA limitB =
        { a := frameSign d * sharedMagnitude a b limitA limitB
          b := frameSign d * sharedMagnitude b a limitB limitA
          remainder := a + b - min (a + b) (limitA + limitB) } := by
  obtain ⟨a, b, ha0, hb0, hpartA, hpartB⟩ := demand_parts_signed d hs
  refine ⟨a, b, ha0, hb0, hpartA, hpartB, ?_⟩
  have hdivide : divideDemand d shareA limitA limitB =
      let x := clampShare (roundedShift 8 (d * shareA)) limitA
      let y := clampShare (d - roundedShift 8 (d * shareA)) limitB
      { a := x.part + frameSign d * min y.excess x.room
        b := y.part + frameSign d * min x.excess y.room
        remainder := (x.excess - min x.excess y.room) + (y.excess - min y.excess x.room) } := rfl
  rw [hdivide, hpartB, hpartA, clampShare_signed d ha0 ha, clampShare_signed d hb0 hb,
    ← sharedMagnitude_add (own := a)]
  simp only [sharedMagnitude, mul_add, Division.mk.injEq, true_and]
  omega

/-- Settles O46: the first three parts are the division's own steps; the bounds and the conservation are those of
the magnitudes, read in the direction of the frame. -/
theorem torqueDivided : Obligations.TorqueDivided := by
  intro d limitA limitB shareA hs hA hB r partA partB clampedA clampedB excessA excessB toA toB direction
  obtain ⟨a, b, ha, hb, hpartA, hpartB, hr⟩ := divideDemand_signed d hs hA hB
  refine ⟨rfl, rfl, rfl, ?_⟩
  have hrA : r.a = frameSign d * sharedMagnitude a b limitA limitB := congrArg Division.a hr
  have hrB : r.b = frameSign d * sharedMagnitude b a limitB limitA := congrArg Division.b hr
  have hrest : r.remainder = a + b - min (a + b) (limitA + limitB) := congrArg Division.remainder hr
  have hsum := sharedMagnitude_add (own := a) (other := b) (limit := limitA) (otherLimit := limitB)
  have hA0 := sharedMagnitude_nonneg (other := b) (otherLimit := limitB) ha hA
  have hB0 := sharedMagnitude_nonneg (other := a) (otherLimit := limitA) hb hB
  have hA1 := sharedMagnitude_le (own := a) (other := b) (limit := limitA) (otherLimit := limitB)
  have hB1 := sharedMagnitude_le (own := b) (other := a) (limit := limitB) (otherLimit := limitA)
  have hwithin : a ≤ limitA → b ≤ limitB → sharedMagnitude a b limitA limitB = a ∧
      sharedMagnitude b a limitB limitA = b := fun h h' =>
    ⟨sharedMagnitude_of_le h h', sharedMagnitude_of_le h' h⟩
  have hpartA' : partA = frameSign d * a := hpartA
  have hpartB' : partB = frameSign d * b := hpartB
  have hdemand : d = partA + partB := (add_sub_cancel partA d).symm
  rcases le_or_gt 0 d with hd | hd
  · rw [frameSign_of_nonneg hd] at hrA hrB hpartA' hpartB'
    omega
  · rw [frameSign_of_neg hd] at hrA hrB hpartA' hpartB'
    omega

end Sys2Proof.Machine
end

section
/-! A report as a frame finds it afterwards: settings, motors that are OUT, attention; then the row GEAR_OVERLOAD
(R132, R133, R155 to R158). -/

namespace Sys2Proof.Machine

/-! ## What a report leaves -/

theorem report_settings (c : Cause) (p : Part) : (report c p).settings = p.settings := by
  rw [Part.settings, report_entries, Part.settings]

theorem MotorSeq.inhibited_out_iff (x : MotorSeq) : x.inhibited.state = .out ↔ x.state = .out := by
  rcases x with ⟨state, _⟩
  cases state <;> simp [inhibited, atRest]

theorem MotorSeq.ramped_out_iff (x : MotorSeq) (torque : Int) :
    (x.ramped torque).state = .out ↔ x.state = .out := by
  rcases x with ⟨state, _, _, _, ramping⟩
  cases state <;> cases ramping <;> simp [ramped, atRest, rampFrom]

theorem PerMotor.get_set_other_self {α : Type} (x : PerMotor α) (m : Motor) (v : α) :
    (x.set m.other v).get m = x.get m := by cases m <;> rfl

theorem Motor.eq_or_eq_other (m k : Motor) : k = m ∨ k = m.other := by cases m <;> cases k <;> decide

/-- An INHIBIT_ONE order takes no motor out, and brings none back (R108). -/
theorem inhibitOneOrder_out_iff (m k : Motor) (p : Part) :
    (inhibitOneOrder m p).motorState k = .out ↔ p.motorState k = .out := by
  by_cases hout : p.motorState m = .out
  · rw [inhibitOneOrder_of_out m p hout]
  by_cases hon : carriesOn p m = true
  · rw [inhibitOneOrder_of_carriesOn m p hout hon]
    simp only [Part.motorState, Part.setSeq_seq, Sequencer.setMotor]
    rcases Motor.eq_or_eq_other m k with rfl | rfl
    · rw [PerMotor.get_set_same, MotorSeq.inhibited_out_iff]
    · rw [PerMotor.get_set_other]
  · rw [inhibitOneOrder_of_tripped m p hout hon]
    simp only [Part.motorState, Part.setSeq_seq]
    rcases Motor.eq_or_eq_other m k with rfl | rfl
    · rw [PerMotor.get_set_other_self, PerMotor.get_set_same, MotorSeq.inhibited_out_iff]
    · rw [PerMotor.get_set_same, MotorSeq.ramped_out_iff]

/-- No trip order takes a motor out, and none brings one back (R107 to R109). -/
theorem tripOrder_out_iff (c : Cause) (cls : TripClass) (p : Part) (k : Motor) :
    (tripOrder c cls p).motorState k = .out ↔ p.motorState k = .out := by
  cases cls with
  | inhibitAll =>
    have hmotor : (tripOrder c .inhibitAll p).seq.motor.get k = (p.seq.motor.get k).inhibited :=
      PerMotor.get_map _ _ k
    rw [Part.motorState, hmotor, MotorSeq.inhibited_out_iff, Part.motorState]
  | rampAll =>
    have hmotor : (tripOrder c .rampAll p).seq.motor.get k =
        (p.seq.motor.get k).ramped (p.allot.motor.get k).torqueRef := by cases k <;> rfl
    rw [Part.motorState, hmotor, MotorSeq.ramped_out_iff, Part.motorState]
  | inhibitOne =>
    cases howner : c.owner with
    | none => simp only [tripOrder, howner]
    | some m => simpa only [tripOrder, howner] using inhibitOneOrder_out_iff m k p

theorem report_out_iff (c : Cause) (p : Part) (k : Motor) :
    (report c p).motorState k = .out ↔ p.motorState k = .out := by
  cases hlatched : isLatched p.trip.latched c with
  | true => rw [report_of_latched c p hlatched]
  | false =>
    rw [report_of_new c p hlatched, Part.motorState, tripEvent_seq]
    exact tripOrder_out_iff c _ (latchCause c _ p) k

/-- The orders in flight raise ORDER at most, when a trip event deals with them. -/
theorem raised_ordersAtTrip_of_ne (c : Cause) (before p : Part) {src : Source} (h : src ≠ .order) :
    (ordersAtTrip c before p).raised src = p.raised src := by
  have horder : (Source.order == src) = false := beq_eq_false_iff_ne.2 h.symm
  have hstop : ∀ q, (finishStop .abortedByTrip q).raised src = q.raised src := fun q => by
    rw [raised_finishStop, horder, Bool.and_false, Bool.or_false]
  have hrun : (finishRun .abortedByTrip p).raised src = p.raised src := by
    rw [raised_finishRun, horder, Bool.and_false, Bool.or_false]
  unfold ordersAtTrip
  dsimp only
  split
  · split
    · rw [hstop, hrun]
    · exact hstop p
  · exact hstop p

/-- A report raises none but TRIP, ORDER and RECORD, canonical memory or not (R158). -/
theorem raised_report_of_ne (c : Cause) (p : Part) {src : Source} (ht : src ≠ .trip) (ho : src ≠ .order)
    (hr : src ≠ .record) : (report c p).raised src = p.raised src := by
  cases hlatched : isLatched p.trip.latched c with
  | true => rw [report_of_latched c p hlatched]
  | false =>
    have htrip : (Source.trip == src) = false := beq_eq_false_iff_ne.2 ht.symm
    rw [report_of_new c p hlatched]
    refine (raised_raiseSource .trip src _).trans ?_
    rw [htrip, Bool.or_false]
    refine (raised_recordTrip c _ _ _ src hr).trans ((raised_ordersAtTrip_of_ne c _ _ ho).trans ?_)
    simp only [Part.raised, tripOrder_attn, latchCause_attn]

theorem report_wf (c : Cause) (p : Part) (h : Memory.wf p.exch.mem = true) :
    Memory.wf (report c p).exch.mem = true := (report_preserves c (.refl p)).memory h

/-! ## GEAR_OVERLOAD -/

theorem Part.keeps.setAllot {changed : List Block} {p q : Part} (h : Part.keeps changed p q) (v : Allotment)
    (hc : Block.allot ∈ changed := by decide) : Part.keeps changed p (q.setAllot v) :=
  h.trans fun b hb => by cases b <;> first | rfl | exact absurd hc hb

/-- The part with its overload run marked as reported (R132). -/
def gearMarkedReported (p : Part) : Part := p.setAllot { p.allot with gearReported := true }

/-- The part with its overload run marked as noticed (R132). -/
def gearMarkedNoticed (p : Part) : Part := p.setAllot { p.allot with gearNoticed := true }

section GearOverload

variable (p : Part)

theorem gearOverload_of_escalated (h : p.settings.escalatesGear = true) :
    gearOverload p = report .gearOverload (gearMarkedReported p) := if_pos h

theorem gearOverload_of_not_escalated (h : ¬ p.settings.escalatesGear = true) :
    gearOverload p =
      if p.allot.limitRaised then gearMarkedNoticed p else raiseSource .limit (gearMarkedNoticed p) := if_neg h

/-- The report of an escalated overload, by the class that bit 5 chooses (R132, R156). -/
theorem gearOverload_reported (h : p.settings.escalatesGear = true) (hwf : Memory.wf p.exch.mem = true) :
    if isLatched p.trip.latched .gearOverload then gearOverload p = gearMarkedReported p
    else if p.settings.classChoices.getLsbD 5 then
      TripTaken .gearOverload .inhibitAll (gearMarkedReported p) (gearOverload p) ∧
        (gearOverload p).seq = (inhibitAllOrder p).seq
    else TripTaken .gearOverload .rampAll (gearMarkedReported p) (gearOverload p) ∧
        (gearOverload p).seq = (rampAllOrder p).seq := by
  rw [gearOverload_of_escalated p h]
  have hclass : (gearMarkedReported p).settings.classOf .gearOverload =
      if p.settings.classChoices.getLsbD 5 then .inhibitAll else .rampAll := rfl
  split
  case isTrue hlatched => exact report_of_latched _ (gearMarkedReported p) hlatched
  case isFalse hnew =>
    rw [report_of_new _ (gearMarkedReported p) (Bool.eq_false_iff.2 hnew), hclass]
    split
    · exact ⟨tripEvent_taken _ _ (gearMarkedReported p) hwf, tripEvent_seq_inhibitAll _ (gearMarkedReported p)⟩
    · exact ⟨tripEvent_taken _ _ (gearMarkedReported p) hwf, tripEvent_seq_rampAll _ (gearMarkedReported p)⟩

theorem gearOverload_noticed (h : ¬ p.settings.escalatesGear = true) :
    (gearOverload p).allot = { p.allot with gearNoticed := true } ∧
    (p.allot.limitRaised = false → Part.raisesOnly [.limit] p (gearOverload p)) ∧
    (p.allot.limitRaised = true → (gearOverload p).attn = p.attn) ∧
    Part.keeps [.attn, .allot] p (gearOverload p) := by
  have hmarked : Part.keeps [.attn, .allot] p (gearMarkedNoticed p) := (Part.keeps.refl _ p).setAllot _
  rw [gearOverload_of_not_escalated p h]
  cases p.allot.limitRaised with
  | true => exact ⟨rfl, nofun, fun _ => rfl, hmarked⟩
  | false => exact ⟨rfl, fun _ => raisesOnly_raiseSource .limit (gearMarkedNoticed p), nofun, hmarked.raise .limit⟩

end GearOverload

/-- Settles O47: a report by the class chosen when GEAR_OVERLOAD is escalated, else the mark and LIMIT. -/
theorem gearOverloadDetected : Obligations.GearOverloadDetected := by
  intro s rest ha hwf
  refine ⟨gearOverload s.part, occurWith_head _ _ s rest rfl ha, ?_⟩
  split
  case isTrue h => exact gearOverload_reported s.part h hwf
  case isFalse h => exact gearOverload_noticed s.part h

end Sys2Proof.Machine
end

section
/-! Steps 1 and 2 of the allotment frame: the thermal state of a motor, and the candidates of which each limit in
force is the smallest, the first among equals (R119 to R125). -/

namespace Sys2Proof.Machine

/-! ## Step 1: the thermal state -/

theorem heatingInput_eq (state : MotorState) (id iq rated : Int) :
    heatingInput state id iq rated =
      if state = .magnetizing ∨ state = .running ∨ state = .stopping then
        min 65535 (((id * id + iq * iq) * 16384).tdiv (rated * rated)) else 0 := by
  simp only [heatingInput, MotorState.energized_iff]

theorem heatingInput_nonneg (state : MotorState) (id iq rated : Int) : 0 ≤ heatingInput state id iq rated := by
  rw [heatingInput]
  split
  · have hsquares : 0 ≤ (id * id + iq * iq) * 16384 :=
      mul_nonneg (add_nonneg (mul_self_nonneg id) (mul_self_nonneg iq)) (by decide)
    exact le_min (by decide) (Int.tdiv_nonneg hsquares (mul_self_nonneg rated))
  · exact le_rfl

/-- A floor quotient lies between 0 and what is divided. -/
theorem ediv_between_zero_and_self (x : Int) {d : Int} (hd : 0 < d) : min 0 x ≤ x / d ∧ x / d ≤ max 0 x := by
  rcases le_total 0 x with hx | hx
  · have hlow := Int.ediv_nonneg hx hd.le
    have hhigh := Int.ediv_le_self d hx
    omega
  · have hlow : x ≤ x / d := (Int.le_ediv_iff_mul_le hd).2 (mul_le_of_one_le_right hx hd)
    have hhigh := Int.ediv_nonpos_of_nonpos_of_neg hx hd
    omega

section ThermalStep

variable (h : Nat) {input : Int} (shift : Nat) (hinput : 0 ≤ input)

/-- The step of H as R125 writes it, between H and the heating input. -/
theorem thermalStep_between :
    min (h : Int) (input * 65536) ≤ h + (input * 65536 - h) / 2 ^ shift ∧
      h + (input * 65536 - h) / 2 ^ shift ≤ max (h : Int) (input * 65536) := by
  have hpos : (0 : Int) < 2 ^ shift := by positivity
  have hquotient := ediv_between_zero_and_self (input * 65536 - h) hpos
  omega

include hinput

/-- H never falls below 0, so that the model's natural number is R125's. -/
theorem thermalStep_eq : (thermalStep h input shift : Int) = h + (input * 65536 - h) / 2 ^ shift := by
  have hlow := (thermalStep_between (input := input) h shift).1
  exact Int.toNat_of_nonneg (by omega)

end ThermalStep

/-! ## Step 2: the smallest candidate -/

/-- The smallest candidate is below every one, and it is the first with its value (R119, R124). -/
theorem smallest_spec (first : Candidate) (rest : List Candidate) :
    (∀ c ∈ first :: rest, (smallest first rest).value ≤ c.value) ∧
      (first :: rest).find? (fun c => c.value == (smallest first rest).value) = some (smallest first rest) := by
  induction rest generalizing first with
  | nil => simp [smallest]
  | cons c rest ih =>
    by_cases hless : c.value < first.value
    · have hstep : smallest first (c :: rest) = smallest c rest := by
        simp only [smallest, List.foldl_cons, if_pos hless]
      obtain ⟨hleast, hfirst⟩ := ih c
      have hc := hleast c List.mem_cons_self
      have hne : (first.value == (smallest c rest).value) = false := beq_eq_false_iff_ne.2 (by omega)
      rw [hstep, List.find?_cons, hne]
      exact ⟨List.forall_mem_cons.2 ⟨by omega, hleast⟩, hfirst⟩
    · have hstep : smallest first (c :: rest) = smallest first rest := by
        simp only [smallest, List.foldl_cons, if_neg hless]
      obtain ⟨hleast, hfirst⟩ := ih first
      obtain ⟨hf, hrest⟩ := List.forall_mem_cons.1 hleast
      rw [hstep]
      refine ⟨List.forall_mem_cons.2 ⟨hf, List.forall_mem_cons.2 ⟨by omega, hrest⟩⟩, ?_⟩
      rw [List.find?_cons] at hfirst ⊢
      split
      next heq => rwa [heq] at hfirst
      next hne =>
        rw [hne] at hfirst
        have hne' := beq_eq_false_iff_ne.1 hne
        have hc : (c.value == (smallest first rest).value) = false := beq_eq_false_iff_ne.2 (by omega)
        rw [List.find?_cons, hc]
        exact hfirst

/-- A candidate as its value and the source it names. -/
def Candidate.pair (c : Candidate) : Int × LimitSource := (c.value, c.source)

/-- The candidates of a direction, in the order of R124. -/
def limitCandidates (s : Settings) (m : MotorSeq) (level factor : Nat) (base : Candidate) (cap : Int) :
    List Candidate :=
  sequencerCandidate m ++ thermalCandidate s level base.value ++ vibrationCandidate factor base.value ++
    [base, { value := cap, source := .gear }]

section LimitInForce

variable (s : Settings) (m : MotorSeq) (level factor : Nat) (base : Candidate) (cap : Int)

/-- The limit in force is the smallest of the candidates, taken in the order of R124. -/
theorem limitInForce_eq_smallest : ∃ first rest,
    limitCandidates s m level factor base cap = first :: rest ∧
      limitInForce s m level factor base cap = smallest first rest := by
  unfold limitCandidates limitInForce
  split
  next hnone => exact ⟨_, _, by rw [hnone]; rfl, rfl⟩
  next c rest hsome => exact ⟨_, _, by rw [hsome]; rfl, rfl⟩

theorem limitInForce_le (x : Int × LimitSource)
    (hx : x ∈ (limitCandidates s m level factor base cap).map Candidate.pair) :
    (limitInForce s m level factor base cap).value ≤ x.1 := by
  obtain ⟨first, rest, hlist, hlimit⟩ := limitInForce_eq_smallest s m level factor base cap
  obtain ⟨c, hc, rfl⟩ := List.mem_map.1 hx
  rw [hlimit]
  exact (smallest_spec first rest).1 c (hlist ▸ hc)

theorem limitInForce_find :
    ((limitCandidates s m level factor base cap).map Candidate.pair).find?
        (fun x => x.1 == (limitInForce s m level factor base cap).value) =
      some (limitInForce s m level factor base cap).pair := by
  obtain ⟨first, rest, hlist, hlimit⟩ := limitInForce_eq_smallest s m level factor base cap
  rw [hlist, hlimit, List.find?_map]
  exact congrArg (Option.map Candidate.pair) (smallest_spec first rest).2

end LimitInForce

/-! The candidates as the values and sources of R120 to R123. -/

theorem sequencerCandidate_pairs (x : MotorSeq) :
    (sequencerCandidate x).map Candidate.pair = match x.state with
      | .stopped | .magnetizing | .tripped | .out => [((0 : Int), LimitSource.sequencer)]
      | .stopping => if x.ramping then [(x.ramp, .trip)] else []
      | .running => [] := by
  rcases x with ⟨state, _, _, _, ramping⟩
  cases state with
  | stopping => cases ramping <;> rfl
  | _ => rfl

theorem thermalCandidate_pairs (s : Settings) (level : Nat) (base : Int) :
    (thermalCandidate s level base).map Candidate.pair =
      if level ≤ s.thermalStart then []
      else if s.thermalTrip ≤ level then [(0, .thermal)]
      else [((base * ((s.thermalTrip : Int) - level)).tdiv ((s.thermalTrip : Int) - s.thermalStart),
        .thermal)] := by
  unfold thermalCandidate
  split_ifs <;> rfl

theorem vibrationCandidate_pairs (factor : Nat) (base : Int) :
    (vibrationCandidate factor base).map Candidate.pair =
      if factor < 32767 then [(roundedShift 15 (base * factor), .vibration)] else [] := by
  unfold vibrationCandidate
  split_ifs <;> rfl

/-- The smallest factor in force among the groups that serve a motor, by name (R122). -/
def servingFactor (p : Part) (m : Motor) : Nat :=
  min (p.vib.group.get (match m with | .a => .pinionA | .b => .pinionB)).factor
    (min (p.vib.group.get .gear).factor (p.vib.group.get .tyre).factor)

theorem smallestFactor_eq (p : Part) (m : Motor) : smallestFactor p m = min 32767 (servingFactor p m) := by
  cases m <;>
  · simp only [smallestFactor, Motor.groups, servingFactor, List.map_cons, List.map_nil, List.foldl_cons,
      List.foldl_nil, min_assoc]

/-- A factor of 32767 or more gives no candidate, so that the start of the search adds none. -/
theorem vibrationCandidate_smallestFactor (p : Part) (m : Motor) (base : Int) :
    vibrationCandidate (smallestFactor p m) base = vibrationCandidate (servingFactor p m) base := by
  rw [smallestFactor_eq]
  rcases lt_or_ge (servingFactor p m) 32767 with h | h
  · rw [min_eq_right h.le]
  · rw [min_eq_left h, vibrationCandidate, vibrationCandidate, if_neg (lt_irrefl _), if_neg (not_lt.2 h)]

/-- The candidates of a direction for motor `m`, in the order of R124. -/
theorem limitCandidates_pairs (s : Settings) (x : MotorSeq) (level : Nat) (p : Part) (m : Motor) (base : Candidate)
    (cap : Int) :
    (limitCandidates s x level (smallestFactor p m) base cap).map Candidate.pair =
      (match x.state with
        | .stopped | .magnetizing | .tripped | .out => [((0 : Int), LimitSource.sequencer)]
        | .stopping => if x.ramping then [(x.ramp, .trip)] else []
        | .running => []) ++
      (if level ≤ s.thermalStart then []
        else if s.thermalTrip ≤ level then [(0, .thermal)]
        else [((base.value * ((s.thermalTrip : Int) - level)).tdiv ((s.thermalTrip : Int) - s.thermalStart),
          .thermal)]) ++
      (if servingFactor p m < 32767 then [(roundedShift 15 (base.value * servingFactor p m), .vibration)]
        else []) ++
      [base.pair, (cap, .gear)] := by
  rw [limitCandidates, vibrationCandidate_smallestFactor, List.map_append, List.map_append, List.map_append,
    sequencerCandidate_pairs, thermalCandidate_pairs, vibrationCandidate_pairs]
  rfl

/-- The source that the base limits name (R120). -/
def baseSource (s : Settings) (group : GroupState) : LimitSource :=
  if group = .starting ∧ s.motoringLimit ≤ s.breakawayLimit then .breakaway else .settings

theorem breakawayNamed_source (s : Settings) (group : GroupState) :
    (if breakawayNamed s group then LimitSource.breakaway else .settings) = baseSource s group := by
  simp only [breakawayNamed, baseSource, Bool.and_eq_true, beq_iff_eq, decide_eq_true_eq]

theorem baseMotoring_eq (s : Settings) (group : GroupState) : baseMotoring s group =
    { value := if group = .starting then max s.motoringLimit s.breakawayLimit else s.motoringLimit
      source := baseSource s group } := by
  rw [baseMotoring, breakawayNamed_source]

theorem baseRegenerating_eq (s : Settings) (group : GroupState) :
    baseRegenerating s group = { value := s.regeneratingLimit, source := baseSource s group } := by
  rw [baseRegenerating, breakawayNamed_source]

end Sys2Proof.Machine
end

section
/-! The allotment frame: its records, the division of the demand, the gear, LIMIT and the reports of THERMAL (R118,
R126 to R133). -/

namespace Sys2Proof.Machine

/-! ## The records and the division -/

def Division.get (v : Division) : Motor → Int
  | .a => v.a
  | .b => v.b

section AllotmentFrame

variable (p : Part)

/-- The demand held within the gear caps (R127). -/
def allotDemand : Int := clampTo (-p.settings.capRegenerating) p.settings.capMotoring p.seq.demand

/-- The direction of the frame: motoring or not (R124). -/
def allotMotoring : Bool := 0 ≤ allotDemand p

/-- The limit in force in the direction of the frame (R128). -/
def limitToward (m : Motor) : Int :=
  if allotMotoring p then (limitRecord p m (allotMotoring p)).motoring
  else (limitRecord p m (allotMotoring p)).regenerating

/-- The division of the demand under the limits in force. -/
def allotDivision : Division :=
  divideDemand (allotDemand p) p.settings.shareA (limitToward p .a) (limitToward p .b)

/-- The record of motor `m` after the frame. -/
def allottedRecord (m : Motor) : LimitRecord :=
  (limitRecord p m (allotMotoring p)).withTorque p.orders.ratings ((allotDivision p).get m)

/-- The flag of R129: whose direction the group is limited in. -/
def allotFlag : Nat :=
  if 0 < (allotDivision p).remainder then (if allotMotoring p then 1 else 2) else 0

/-- The gear's torque has come to its trip level (R132). -/
def gearOverloaded : Bool :=
  p.settings.gearTripLevel ≤ ((allottedRecord p .a).estimate + (allottedRecord p .b).estimate).natAbs

/-- The length of the overload run after the frame (R132). -/
def gearRunAfter : Nat := if gearOverloaded p then countUp 255 p.allot.gearRun else 0

/-- GEAR_OVERLOAD is due: the run has come to its persistence, and its mark is not set (R132, log 23). -/
def gearDetected : Bool :=
  gearOverloaded p && decide (p.settings.gearPersistence ≤ gearRunAfter p) &&
    (if p.settings.escalatesGear then !p.allot.gearReported else !p.allot.gearNoticed)

/-- A shown source or the flag has changed (R133). -/
def limitChanged : Bool :=
  (allottedRecord p .a).shown ≠ p.allot.motor.a.shown ∨ (allottedRecord p .b).shown ≠ p.allot.motor.b.shown ∨
    allotFlag p ≠ p.allot.groupLimited

/-- The allotment block after the frame. -/
def allotted : Allotment where
  motor := { a := allottedRecord p .a, b := allottedRecord p .b }
  motoringFrame := allotMotoring p
  groupLimited := allotFlag p
  gearRun := gearRunAfter p
  gearReported := gearOverloaded p && p.allot.gearReported
  gearNoticed := gearOverloaded p && p.allot.gearNoticed
  limitRaised := limitChanged p
  published := true

/-- The part with its allotment block published and LIMIT raised, before the reports. -/
def allotPublished : Part :=
  if limitChanged p then raiseSource .limit (p.setAllot (allotted p)) else p.setAllot (allotted p)

/-- The model's frame, step by step: the block, LIMIT, then the reports and the due gear overload. -/
theorem allotmentFrame_eq : allotmentFrame p =
    { part := reportThermal .b (reportThermal .a (allotPublished p))
      due := if gearDetected p then [Work.gearOverload] else [] } := rfl

theorem allotMotoring_iff : allotMotoring p = true ↔ 0 ≤ allotDemand p := decide_eq_true_iff

theorem gearOverloaded_iff : gearOverloaded p = true ↔ p.settings.gearTripLevel ≤
    ((allottedRecord p .a).estimate + (allottedRecord p .b).estimate).natAbs := decide_eq_true_iff

theorem limitChanged_iff : limitChanged p = true ↔
    (∃ m, (allottedRecord p m).shown ≠ (p.allot.motor.get m).shown) ∨ allotFlag p ≠ p.allot.groupLimited := by
  have hmotors : (∃ m, (allottedRecord p m).shown ≠ (p.allot.motor.get m).shown) ↔
      (allottedRecord p .a).shown ≠ p.allot.motor.a.shown ∨
        (allottedRecord p .b).shown ≠ p.allot.motor.b.shown :=
    ⟨fun ⟨m, h⟩ => by cases m with | a => exact .inl h | b => exact .inr h,
      fun h => h.elim (⟨.a, ·⟩) (⟨.b, ·⟩)⟩
  rw [limitChanged, decide_eq_true_iff, hmotors, or_assoc]

theorem allotFlag_eq :
    allotFlag p = if (allotDivision p).remainder ≤ 0 then 0 else if 0 ≤ allotDemand p then 1 else 2 := by
  simp only [allotFlag, allotMotoring_iff]
  split_ifs <;> first | rfl | omega

theorem allotted_motor (m : Motor) : (allotted p).motor.get m = allottedRecord p m := by cases m <;> rfl

theorem allottedRecord_torqueRef (m : Motor) :
    (allottedRecord p m).torqueRef = match m with | .a => (allotDivision p).a | .b => (allotDivision p).b := by
  cases m <;> rfl

theorem allottedRecord_shown (m : Motor) : (allottedRecord p m).shown =
    if 0 ≤ allotDemand p then (allottedRecord p m).motoringSource
    else (allottedRecord p m).regeneratingSource := by
  simp only [← allotMotoring_iff]
  rfl

theorem limitToward_eq (m : Motor) : limitToward p m =
    if 0 ≤ allotDemand p then (allottedRecord p m).motoring else (allottedRecord p m).regenerating := by
  simp only [← allotMotoring_iff]
  rfl

/-! ### Heating and limits -/

/-- The heating input of motor `m` in the frame (R125). -/
def frameHeat (m : Motor) : Int :=
  heatingInput (p.motorState m) (p.ctl.get m).id (p.ctl.get m).iq p.orders.ratings.ratedCurrent

theorem allottedRecord_thermalH (m : Motor) : ((allottedRecord p m).thermalH : Int) =
    (p.allot.motor.get m).thermalH +
      (frameHeat p m * 65536 - (p.allot.motor.get m).thermalH) / 2 ^ p.settings.thermalShift :=
  thermalStep_eq _ _ (heatingInput_nonneg _ _ _ _)

theorem allottedRecord_thermalH_between (m : Motor) :
    min ((p.allot.motor.get m).thermalH : Int) (frameHeat p m * 65536) ≤ (allottedRecord p m).thermalH ∧
      ((allottedRecord p m).thermalH : Int) ≤
        max ((p.allot.motor.get m).thermalH : Int) (frameHeat p m * 65536) := by
  rw [allottedRecord_thermalH]
  exact thermalStep_between _ _

/-- The candidates of motor `m` in the direction of a base limit and its gear cap. -/
def frameCandidates (m : Motor) (base : Candidate) (cap : Int) : List (Int × LimitSource) :=
  (limitCandidates p.settings (p.seq.motor.get m) ((allottedRecord p m).thermalH / 65536) (smallestFactor p m)
    base cap).map Candidate.pair

theorem allottedRecord_motoring (m : Motor) :
    let candidates := frameCandidates p m (baseMotoring p.settings p.seq.group) p.settings.capMotoring
    (∀ x ∈ candidates, (allottedRecord p m).motoring ≤ x.1) ∧
      candidates.find? (fun x => x.1 == (allottedRecord p m).motoring) =
        some ((allottedRecord p m).motoring, (allottedRecord p m).motoringSource) :=
  ⟨limitInForce_le _ _ _ _ _ _, limitInForce_find _ _ _ _ _ _⟩

theorem allottedRecord_regenerating (m : Motor) :
    let candidates := frameCandidates p m (baseRegenerating p.settings p.seq.group) p.settings.capRegenerating
    (∀ x ∈ candidates, (allottedRecord p m).regenerating ≤ x.1) ∧
      candidates.find? (fun x => x.1 == (allottedRecord p m).regenerating) =
        some ((allottedRecord p m).regenerating, (allottedRecord p m).regeneratingSource) :=
  ⟨limitInForce_le _ _ _ _ _ _, limitInForce_find _ _ _ _ _ _⟩

/-! ### Due work and marks of the gear -/

theorem gearDetected_iff : gearDetected p = true ↔ gearOverloaded p = true ∧
    p.settings.gearPersistence ≤ gearRunAfter p ∧
    (if p.settings.escalatesGear then p.allot.gearReported else p.allot.gearNoticed) = false := by
  simp only [gearDetected, Bool.and_eq_true, decide_eq_true_eq, and_assoc]
  split <;> simp only [Bool.not_eq_true']

/-! ### The part before the reports -/

theorem allotPublished_allot : (allotPublished p).allot = allotted p := by
  unfold allotPublished
  split <;> rfl

theorem allotPublished_keeps : Part.keeps [.allot, .attn] p (allotPublished p) := by
  have hset : Part.keeps [.allot, .attn] p (p.setAllot (allotted p)) := (Part.keeps.refl _ p).setAllot _
  unfold allotPublished
  split
  · exact hset.raise .limit
  · exact hset

theorem allotPublished_raisesOnly :
    Part.raisesOnly (if limitChanged p then [.limit] else []) p (allotPublished p) := by
  unfold allotPublished
  split
  · exact raisesOnly_raiseSource .limit (p.setAllot (allotted p))
  · exact ⟨rfl, fun src => (Bool.or_false _).symm⟩

end AllotmentFrame

/-! ## The reports of THERMAL -/

/-- THERMAL of motor `m` is to be reported (R126). -/
def ThermalDue (m : Motor) (p : Part) : Prop :=
  p.motorState m ≠ .out ∧ p.settings.escalation.getLsbD 4 = true ∧
    p.settings.thermalTrip ≤ (p.allot.motor.get m).thermalH / 65536

section ReportThermal

variable (m : Motor) (p : Part)

theorem reportThermal_of_due (h : ThermalDue m p) : reportThermal m p = report (.thermal m) p := if_pos h

theorem reportThermal_of_not_due (h : ¬ ThermalDue m p) : reportThermal m p = p := if_neg h

/-- The trip event of a report, by the class that bit 4 chooses (R126, R156). -/
theorem reportThermal_taken (hdue : ThermalDue m p) (hnew : isLatched p.trip.latched (.thermal m) = false)
    (hwf : Memory.wf p.exch.mem = true) :
    TripTaken (.thermal m) (if p.settings.classChoices.getLsbD 4 then .inhibitOne else .rampAll) p
        (reportThermal m p) ∧
      (reportThermal m p).seq =
        (if p.settings.classChoices.getLsbD 4 then inhibitOneOrder m p else rampAllOrder p).seq := by
  have hclass : p.settings.classOf (.thermal m) =
      if p.settings.classChoices.getLsbD 4 then .inhibitOne else .rampAll := rfl
  rw [reportThermal_of_due m p hdue, report_of_new _ p hnew, hclass]
  refine ⟨tripEvent_taken _ _ p hwf, ?_⟩
  split
  · exact tripEvent_seq_inhibitOne _ m p rfl
  · exact tripEvent_seq_rampAll _ p

/-- Nothing is done where no report is due, or where the cause is latched (R155). -/
theorem reportThermal_quiet (h : ¬ (ThermalDue m p ∧ isLatched p.trip.latched (.thermal m) = false)) :
    reportThermal m p = p := by
  by_cases hdue : ThermalDue m p
  · rw [reportThermal_of_due m p hdue]
    cases hlatched : isLatched p.trip.latched (.thermal m) with
    | true => exact report_of_latched _ p hlatched
    | false => exact absurd ⟨hdue, hlatched⟩ h
  · exact reportThermal_of_not_due m p hdue

/-- What a report has in common with the part before it, for the report that follows. -/
theorem reportThermal_eq_or : reportThermal m p = p ∨ reportThermal m p = report (.thermal m) p := by
  by_cases hdue : ThermalDue m p
  · exact .inr (reportThermal_of_due m p hdue)
  · exact .inl (reportThermal_of_not_due m p hdue)

theorem reportThermal_allot : (reportThermal m p).allot = p.allot := by
  rcases reportThermal_eq_or m p with h | h <;> simp only [h, report_allot]

theorem reportThermal_settings : (reportThermal m p).settings = p.settings := by
  rcases reportThermal_eq_or m p with h | h <;> simp only [h, report_settings]

theorem reportThermal_out_iff (k : Motor) :
    (reportThermal m p).motorState k = .out ↔ p.motorState k = .out := by
  rcases reportThermal_eq_or m p with h | h <;> simp only [h, report_out_iff]

theorem raised_limit_reportThermal : (reportThermal m p).raised .limit = p.raised .limit := by
  rcases reportThermal_eq_or m p with h | h <;> rw [h]
  exact raised_report_of_ne _ p (by decide) (by decide) (by decide)

theorem reportThermal_wf (h : Memory.wf p.exch.mem = true) : Memory.wf (reportThermal m p).exch.mem = true :=
  (reportThermal_preserves m (.refl p)).memory h

/-- The report of one motor decides nothing of the other's. -/
theorem thermalDue_reportThermal_iff (k : Motor) : ThermalDue k (reportThermal m p) ↔ ThermalDue k p := by
  unfold ThermalDue
  rw [ne_eq, reportThermal_out_iff, reportThermal_settings, reportThermal_allot]

end ReportThermal

/-! ## The frame as a whole -/

section Whole

variable (p : Part)

theorem allotmentFrame_allot : (allotmentFrame p).part.allot = allotted p := by
  rw [allotmentFrame_eq, reportThermal_allot, reportThermal_allot, allotPublished_allot]

theorem allotPublished_settings : (allotPublished p).settings = p.settings :=
  congrArg OrderUnit.settings (allotPublished_keeps p .orders (by decide))

/-- A report is due by the motor and the settings before the frame and by H after it. -/
theorem thermalDue_allotPublished_iff (m : Motor) : ThermalDue m (allotPublished p) ↔
    p.motorState m ≠ .out ∧ p.settings.escalation.getLsbD 4 = true ∧
      p.settings.thermalTrip ≤ ((allotted p).motor.get m).thermalH / 65536 := by
  have hseq : (allotPublished p).seq = p.seq := allotPublished_keeps p .seq (by decide)
  rw [ThermalDue, Part.motorState, hseq, allotPublished_settings, allotPublished_allot]
  rfl

theorem raised_limit_allotmentFrame :
    (allotmentFrame p).part.raised .limit = (p.raised .limit || limitChanged p) := by
  rw [allotmentFrame_eq, raised_limit_reportThermal, raised_limit_reportThermal,
    (allotPublished_raisesOnly p).2]
  cases limitChanged p <;> rfl

theorem allotmentFrame_keeps_of_quiet (h : ∀ m, ¬ ThermalDue m (allotPublished p)) :
    Part.keeps [.allot, .attn] p (allotmentFrame p).part := by
  rw [allotmentFrame_eq, reportThermal_of_not_due .a _ (h .a), reportThermal_of_not_due .b _ (h .b)]
  exact allotPublished_keeps p

end Whole

/-- Settles O58: the block by its records, the division, the gear and the flag; the reports of A, then of B, by
what is due after the block is published. -/
theorem allotmentFramed : Obligations.AllotmentFramed := by
  intro p work q st ratings demand limit share total
  have hallot : q.allot = allotted p := allotmentFrame_allot p
  have hrecord : ∀ m, q.allot.motor.get m = allottedRecord p m := fun m => by rw [hallot, allotted_motor]
  have hlimit : ∀ m, limit m = limitToward p m := fun m => by
    rw [limitToward_eq, ← hrecord]
    rfl
  have hshare : share = allotDivision p := by
    simp only [share, hlimit]
    rfl
  have htotal : total = (allottedRecord p .a).estimate + (allottedRecord p .b).estimate := by
    simp only [total, hrecord]
  have hoverload : st.gearTripLevel ≤ total.natAbs ↔ gearOverloaded p = true := by
    rw [htotal]
    exact (gearOverloaded_iff p).symm
  have hchanged : (∃ m, (q.allot.motor.get m).shown ≠ (p.allot.motor.get m).shown) ∨
      q.allot.groupLimited ≠ p.allot.groupLimited ↔ limitChanged p = true := by
    simp only [limitChanged_iff, hallot, allotted_motor]
    rfl
  have hdue : ∀ m, ThermalDue m (allotPublished p) ↔ p.motorState m ≠ .out ∧
      st.escalation.getLsbD 4 = true ∧ st.thermalTrip ≤ (q.allot.motor.get m).thermalH / 65536 := fun m => by
    rw [hallot]
    exact thermalDue_allotPublished_iff p m
  refine ⟨fun m => ?motor, fun hwf => ?reports, ?flag, ?run, ?gear, ?direction, congrArg Allotment.published hallot,
    ?changed, ?raised, fun hquiet => ?quiet⟩
  case motor =>
    intro r r' current heat level factor named candidates motoring regenerating
    have hr' : r' = allottedRecord p m := hrecord m
    have hheat : heat = frameHeat p m := (heatingInput_eq _ _ _ _).symm
    have hcandidates : ∀ base cap,
        candidates base cap = frameCandidates p m { value := base, source := named } cap := fun base cap => by
      rw [frameCandidates, limitCandidates_pairs, ← hr']
      rfl
    have hmotoring : motoring = frameCandidates p m (baseMotoring st p.seq.group) st.capMotoring := by
      rw [baseMotoring_eq]
      exact hcandidates _ _
    have hregenerating :
        regenerating = frameCandidates p m (baseRegenerating st p.seq.group) st.capRegenerating := by
      rw [baseRegenerating_eq]
      exact hcandidates _ _
    obtain ⟨hleM, hfindM⟩ := allottedRecord_motoring p m
    obtain ⟨hleR, hfindR⟩ := allottedRecord_regenerating p m
    obtain ⟨hlow, hhigh⟩ := allottedRecord_thermalH_between p m
    rw [hmotoring, hregenerating, hheat, hr', hshare]
    exact ⟨allottedRecord_thermalH p m, hlow, hhigh, hleM, hfindM, hleR, hfindR, allottedRecord_shown p m,
      allottedRecord_torqueRef p m, rfl, rfl⟩
  case reports =>
    intro reportOf
    have hreport : ∀ m x, Memory.wf x.exch.mem = true → x.settings = st →
        (ThermalDue m x ↔ ThermalDue m (allotPublished p)) → reportOf m x (reportThermal m x) := by
      intro m x hwfx hset hsame
      dsimp only [reportOf]
      split
      next h =>
        obtain ⟨hin, hesc, hlevel, hnew⟩ := h
        rw [← hset]
        exact reportThermal_taken m x (hsame.2 ((hdue m).2 ⟨hin, hesc, hlevel⟩)) hnew hwfx
      next h =>
        refine reportThermal_quiet m x fun ⟨hx, hnew⟩ => h ?_
        obtain ⟨hin, hesc, hlevel⟩ := (hdue m).1 (hsame.1 hx)
        exact ⟨hin, hesc, hlevel, hnew⟩
    have hset := allotPublished_settings p
    have hwf' : Memory.wf (allotPublished p).exch.mem = true := by
      rwa [show (allotPublished p).exch = p.exch from allotPublished_keeps p .exch (by decide)]
    refine ⟨allotPublished p, reportThermal .a (allotPublished p),
      (allotPublished_allot p).trans hallot.symm, allotPublished_keeps p, ?_,
      hreport .a _ hwf' hset Iff.rfl,
      hreport .b _ (reportThermal_wf .a _ hwf') ((reportThermal_settings .a _).trans hset)
        (thermalDue_reportThermal_iff .a _ .b)⟩
    rw [hallot]
    exact allotPublished_raisesOnly p
  case flag =>
    rw [hallot, hshare]
    exact allotFlag_eq p
  case run =>
    simp only [hoverload, hallot]
    rfl
  case gear =>
    intro overload due
    have hdetected : due ↔ gearDetected p = true := by
      rw [gearDetected_iff, ← hoverload]
      simp only [due, overload, hallot]
      rfl
    have hwork : work.due = if gearDetected p then [Work.gearOverload] else [] := rfl
    rw [hwork, hallot]
    simp only [overload, hoverload]
    exact ⟨fun h => if_pos (hdetected.1 h), fun h => if_neg (mt hdetected.2 h), Bool.and_eq_true_iff,
      Bool.and_eq_true_iff⟩
  case direction =>
    rw [hallot]
    exact allotMotoring_iff p
  case changed =>
    rw [hchanged, hallot]
    rfl
  case raised =>
    rw [hchanged, ← Bool.or_eq_true]
    exact Bool.eq_iff_iff.1 (raised_limit_allotmentFrame p)
  case quiet =>
    refine allotmentFrame_keeps_of_quiet p fun m h => ?_
    obtain ⟨hin, hesc, hlevel⟩ := (hdue m).1 h
    rcases hquiet m with hoff | hout | hbelow
    · exact Bool.false_ne_true (hoff.symm.trans hesc)
    · exact hin hout
    · omega

end Sys2Proof.Machine
end

section
/-! The end of a window: the channel judged by the thresholds of the speed band (R139 to R143). -/

namespace Sys2Proof.Machine

/-! ## The judgement (R141) -/

section JudgeState

variable (old : ChannelState) (alertRun dangerRun level : Nat) (t : Thresholds)
  (margin alertPersistence dangerPersistence : Nat)

theorem judgeState_danger (h : dangerPersistence ≤ dangerRun) :
    judgeState old alertRun dangerRun level t margin alertPersistence dangerPersistence = .danger := if_pos h

/-- Below the persistence of DANGER a channel that was neither in ALERT nor in DANGER goes by the persistence
of ALERT. -/
theorem judgeState_from_normal (h : dangerRun < dangerPersistence)
    (hold : old = .disabled ∨ old = .normal ∨ old = .invalid) :
    judgeState old alertRun dangerRun level t margin alertPersistence dangerPersistence =
      if alertPersistence ≤ alertRun then .alert else .normal := by
  rcases hold with rfl | rfl | rfl <;> exact if_neg (not_le.2 h)

theorem judgeState_from_alert (h : dangerRun < dangerPersistence) :
    judgeState .alert alertRun dangerRun level t margin alertPersistence dangerPersistence =
      if (level : Int) < t.alert - margin then .normal else .alert := by
  rw [judgeState, if_neg (not_le.2 h)]
  simp only [decide_eq_true_iff]

/-- From DANGER a channel goes down by the margin of DANGER first, then by that of ALERT. -/
theorem judgeState_from_danger (h : dangerRun < dangerPersistence) :
    judgeState .danger alertRun dangerRun level t margin alertPersistence dangerPersistence =
      if (level : Int) < t.danger - margin then
        if (level : Int) < t.alert - margin then .normal else .alert
      else .danger := by
  rw [judgeState, if_neg (not_le.2 h)]
  by_cases hdanger : (level : Int) < t.danger - margin
  · by_cases halert : (level : Int) < t.alert - margin <;> simp [hdanger, halert]
  · simp [hdanger]

end JudgeState

/-! ## The window's end -/

section WindowEnded

variable (ch : Channel) (s : Settings) (g : VibGroup) (speed : Int)

theorem Channel.windowEnded_invalid (h : s.window / 8 < ch.invalid) :
    ch.windowEnded s g speed =
      { ch with
        accumulator := 0, samples := 0, invalid := 0, alertRun := 0, dangerRun := 0, state := .invalid } :=
  if_pos h

theorem Channel.windowEnded_judged (h : ch.invalid ≤ s.window / 8) :
    let new := ch.windowEnded s g speed
    let t := Settings.thresholdsOf s (speedBand s.edges speed) g
    new.level = isqrt (ch.accumulator / s.window) ∧
    new.alertRun = (if t.alert ≤ new.level then min 15 (ch.alertRun + 1) else 0) ∧
    new.dangerRun = (if t.danger ≤ new.level then min 15 (ch.dangerRun + 1) else 0) ∧
    new.state = judgeState ch.state new.alertRun new.dangerRun new.level t (s.groups.get g).margin
      s.alertPersistence s.dangerPersistence := by
  rw [Channel.windowEnded, if_neg (not_lt.2 h)]
  exact ⟨rfl, rfl, rfl, rfl⟩

/-- Either way a fresh window begins, and the filter goes on. -/
theorem Channel.windowEnded_frame :
    let new := ch.windowEnded s g speed
    new = { ch with
      accumulator := 0, samples := 0, invalid := 0, alertRun := new.alertRun
      dangerRun := new.dangerRun, level := new.level, state := new.state } := by
  rcases lt_or_ge (s.window / 8) ch.invalid with h | h
  · rw [ch.windowEnded_invalid s g speed h]
  · rw [Channel.windowEnded, if_neg (not_lt.2 h)]

end WindowEnded

section WindowEnd

variable (c : Accel) (p : Part)

/-- Channel `c` after the end of its window. -/
def windowJudged : Channel := (p.vib.channel.get c).windowEnded p.settings c.group p.acq.driveSpeed

theorem windowEnd_eq : windowEnd c p =
    if (windowJudged c p).state = (p.vib.channel.get c).state then p.setChannel c (windowJudged c p)
    else raiseSource .vibration (p.setChannel c (windowJudged c p)) := rfl

theorem windowEnd_vib :
    (windowEnd c p).vib = { p.vib with channel := p.vib.channel.set c (windowJudged c p) } := by
  rw [windowEnd_eq]
  split <;> rfl

theorem windowEnd_channel : (windowEnd c p).vib.channel.get c = windowJudged c p := by
  rw [windowEnd_vib, PerAccel.get_set_same]

theorem windowEnd_raises : Part.raisesOnly
    (if (windowJudged c p).state = (p.vib.channel.get c).state then [] else [.vibration]) p (windowEnd c p) := by
  rw [windowEnd_eq]
  split
  · exact ⟨rfl, fun _ => (Bool.or_false _).symm⟩
  · exact raisesOnly_raiseSource .vibration (p.setChannel c _)

theorem windowEnd_keeps : Part.keeps [.attn, .vib] p (windowEnd c p) := by
  have hset : Part.keeps [.attn, .vib] p (p.setChannel c (windowJudged c p)) := (Part.keeps.refl _ p).setVib _
  rw [windowEnd_eq]
  split
  · exact hset
  · exact hset.raise .vibration

end WindowEnd

/-- Settles O48: too many invalid samples, or the level, the runs and the state as judged. -/
theorem windowEnded : Obligations.WindowEnded := by
  intro c s rest ha old st t margin
  refine ⟨windowEnd c s.part, occurWith_head _ _ s rest rfl ha, ?_⟩
  rw [windowEnd_channel]
  refine ⟨Channel.windowEnded_frame _ _ _ _, windowEnd_vib c s.part, windowEnd_raises c s.part,
    windowEnd_keeps c s.part, fun h => ?invalid, fun h => ?judged⟩
  case invalid =>
    rw [windowJudged, Channel.windowEnded_invalid _ _ _ _ h]
    exact ⟨rfl, rfl, rfl, rfl⟩
  case judged =>
    obtain ⟨hlevel, halert, hdanger, hstate⟩ :=
      old.windowEnded_judged s.part.settings c.group s.part.acq.driveSpeed h
    obtain ⟨hle, hlt⟩ := isqrt_bounds (old.accumulator / 2 ^ st.windowCode)
    refine ⟨hlevel ▸ hle, hlevel ▸ hlt, halert, hdanger,
      fun h => hstate.trans (judgeState_danger _ _ _ _ _ _ _ _ h), fun hquiet => ?_⟩
    rw [windowJudged, hstate]
    cases old.state with
    | disabled | normal | invalid =>
      refine judgeState_from_normal _ _ _ _ _ _ _ _ hquiet ?_
      decide
    | alert => exact judgeState_from_alert _ _ _ _ _ _ _ hquiet
    | danger => exact judgeState_from_danger _ _ _ _ _ _ _ hquiet

end Sys2Proof.Machine
end

section
/-! The vibration watch's frame: the holds count down, the factors are published, a hold ends (R146). -/

namespace Sys2Proof.Machine

theorem PerGroup.get_map {α β : Type} (x : PerGroup α) (f : α → β) (g : VibGroup) :
    (x.map f).get g = f (x.get g) := by cases g <;> rfl

/-- A group's record one frame on: its hold has one frame less to run (R146). -/
def GroupWatch.countedDown (w : GroupWatch) : GroupWatch :=
  { w with hold := w.hold.map (fun h => { h with remaining := h.remaining - 1 }) }

/-- Whether the hold of a group's record is at its end. -/
def GroupWatch.holdOver (w : GroupWatch) : Bool :=
  match w.hold with
  | some h => h.remaining == 0
  | none => false

/-- A hold comes to its end in the frame that it begins with one frame, or none, to run. -/
theorem GroupWatch.holdOver_countedDown (w : GroupWatch) :
    w.countedDown.holdOver = w.hold.any (fun h => h.remaining ≤ 1) := by
  rw [holdOver, countedDown]
  cases w.hold with
  | none => rfl
  | some h =>
    rw [Option.map_some, Option.any_some, Bool.eq_iff_iff]
    simp only [beq_iff_eq, decide_eq_true_iff]
    omega

section Frame

variable (p : Part) (g : VibGroup)

theorem vibrationFrame_vib :
    (vibrationFrame p).part.vib = { p.vib with group := p.vib.group.map GroupWatch.countedDown } := rfl

theorem vibrationFrame_group : (vibrationFrame p).part.vib.group.get g = (p.vib.group.get g).countedDown :=
  PerGroup.get_map _ _ _

theorem vibrationFrame_keeps : Part.keeps [.vib] p (vibrationFrame p).part := (Part.keeps.refl _ p).setVib _

/-- The ends of the holds that come to 0 are due in the order of the groups (log 16), then the publishing. -/
theorem vibrationFrame_due :
    (vibrationFrame p).due =
      (VibGroup.all.filter (fun g => (p.vib.group.get g).hold.any (fun h => h.remaining ≤ 1))).map
        Work.derateHoldExpiry ++ [.vibrationPublish] := by
  have hover : ∀ g, ((p.vib.group.map GroupWatch.countedDown).get g).holdOver =
      (p.vib.group.get g).hold.any (fun h => h.remaining ≤ 1) := fun g => by
    rw [PerGroup.get_map, GroupWatch.holdOver_countedDown]
  simp only [← hover]
  rfl

/-! ## The publishing -/

theorem vibrationPublish_vib :
    (vibrationPublish p).vib =
      { p.vib with
        group := (vibrationPublish p).vib.group, published := true
        band := speedBand p.settings.edges p.acq.driveSpeed } := rfl

/-- With no hold running the factor of the group state is in force. -/
theorem vibrationPublish_group_of_none (h : (p.vib.group.get g).hold = none) :
    (vibrationPublish p).vib.group.get g =
      { p.vib.group.get g with
        factor := factorOf (p.settings.groups.get g) (p.vib.group.get g).state, holdShown := 0 } := by
  refine (PerGroup.get_ofFun _ g).trans ?_
  simp only [factorInForce, h]

/-- While a hold runs the smaller factor is in force, that of the held state or that of the group state. -/
theorem vibrationPublish_group_of_some (hold : Hold) (h : (p.vib.group.get g).hold = some hold) :
    (vibrationPublish p).vib.group.get g =
      { p.vib.group.get g with
        factor := min (factorOf (p.settings.groups.get g) hold.held)
          (factorOf (p.settings.groups.get g) (p.vib.group.get g).state)
        holdShown := hold.remaining } := by
  refine (PerGroup.get_ofFun _ g).trans ?_
  simp only [factorInForce, h]

theorem vibrationPublish_keeps : Part.keeps [.vib] p (vibrationPublish p) := (Part.keeps.refl _ p).setVib _

end Frame

/-- Settles O51: the holds of a frame, what is published behind them, and the end of a hold. -/
theorem derateHoldEnded : Obligations.DerateHoldEnded := by
  unfold Obligations.DerateHoldEnded
  intro factor
  have hfactor : ∀ x state, factor x state = factorOf x state := fun x state => by cases state <;> rfl
  refine ⟨fun p => ?frame, fun p => ?publish, fun g s rest ha => ?expiry⟩
  case frame =>
    intro work ends
    have hends : ∀ g, ends g = (p.vib.group.get g).hold.any (fun h => h.remaining ≤ 1) := fun g => by
      simp only [ends]
      cases (p.vib.group.get g).hold <;> rfl
    refine ⟨rfl, vibrationFrame_keeps p, vibrationFrame_group p, ?_⟩
    rw [funext hends]
    exact vibrationFrame_due p
  case publish =>
    intro work
    refine ⟨rfl, vibrationPublish_keeps p, vibrationPublish_vib p, fun g => ?_⟩
    rw [funext₂ hfactor]
    exact ⟨vibrationPublish_group_of_none p g, vibrationPublish_group_of_some p g⟩
  case expiry =>
    rw [funext₂ hfactor]
    exact occurWith_head _ _ s rest rfl ha

end Sys2Proof.Machine
end

section
/-! The trip unit's frame: the history entry, the ring, and the entry's copy into the record being filled
(R152, R165, R170). -/

namespace Sys2Proof.Machine

/-! ## The group level (R152) -/

theorem foldl_max_spec (xs : List Nat) (a : Nat) :
    a ≤ xs.foldl max a ∧ (∀ x ∈ xs, x ≤ xs.foldl max a) ∧ (xs.foldl max a = a ∨ xs.foldl max a ∈ xs) := by
  induction xs generalizing a with
  | nil => exact ⟨le_rfl, nofun, .inl rfl⟩
  | cons x xs ih =>
    obtain ⟨hle, hall, hattained⟩ := ih (max a x)
    rw [List.foldl_cons, List.forall_mem_cons, List.mem_cons]
    refine ⟨(le_max_left a x).trans hle, ⟨(le_max_right a x).trans hle, hall⟩, ?_⟩
    rcases hattained with h | h
    · rw [h]
      exact (max_choice a x).imp id .inl
    · exact .inr (.inr h)

theorem Accel.mem_members_iff (c : Accel) (g : VibGroup) : c ∈ g.members ↔ c.group = g := by
  cases c <;> cases g <;> decide

theorem levelCounts_iff (x : ChannelState) : levelCounts x = true ↔ x = .normal ∨ x = .alert ∨ x = .danger := by
  cases x <;> decide

section GroupLevel

variable (p : Part) (g : VibGroup)

/-- The levels that count in the group's level. -/
def groupLevels : List Nat :=
  g.members.filterMap (fun c =>
    if levelCounts (p.vib.channel.get c).state then some (p.vib.channel.get c).level else none)

theorem groupLevel_eq : groupLevel p g = (groupLevels p g).foldl max 0 := rfl

theorem mem_groupLevels_iff (x : Nat) : x ∈ groupLevels p g ↔
    ∃ c : Accel, c.group = g ∧ levelCounts (p.vib.channel.get c).state = true ∧
      (p.vib.channel.get c).level = x := by
  simp only [groupLevels, List.mem_filterMap, Accel.mem_members_iff, Option.ite_none_right_eq_some,
    Option.some.injEq]

theorem level_le_groupLevel (c : Accel) (hc : c.group = g)
    (hcounts : levelCounts (p.vib.channel.get c).state = true) :
    (p.vib.channel.get c).level ≤ groupLevel p g :=
  (foldl_max_spec _ 0).2.1 _ ((mem_groupLevels_iff p g _).2 ⟨c, hc, hcounts, rfl⟩)

theorem groupLevel_attained : groupLevel p g = 0 ∨ ∃ c : Accel, c.group = g ∧
    levelCounts (p.vib.channel.get c).state = true ∧ groupLevel p g = (p.vib.channel.get c).level := by
  refine (foldl_max_spec (groupLevels p g) 0).2.2.imp id fun h => ?_
  obtain ⟨c, hc, hcounts, hlevel⟩ := (mem_groupLevels_iff p g _).1 h
  exact ⟨c, hc, hcounts, hlevel.symm⟩

end GroupLevel

/-! ## The entry -/

theorem historyEntry_motor (p : Part) (m : Motor) :
    (historyEntry p).motor.get m =
      { state := p.motorState m, shown := (p.allot.motor.get m).shown
        iqRef := (p.allot.motor.get m).iqRef, iq := (p.ctl.get m).iq, limit := p.limitShown m
        speed := (p.acq.enc.get m).speed } := by cases m <;> rfl

theorem historyEntry_frame (p : Part) : (historyEntry p).frame.toNat = p.acq.frameCount.toNat % 65536 :=
  (BitVec.extractLsb'_toNat 0 16 p.acq.frameCount).trans (by rw [Nat.shiftRight_zero])

theorem historyEntry_level (p : Part) (g : VibGroup) : (historyEntry p).level.get g = groupLevel p g :=
  PerGroup.get_ofFun _ g

theorem historyEntry_vib (p : Part) (g : VibGroup) :
    (historyEntry p).vib.get g = (p.vib.group.get g).state := by cases g <;> rfl

/-! ## The ring and the record -/

/-- Where the next history entry of the record being filled stands (R168, R170). -/
def Filling.place (f : Filling) : Nat := slotOffset f.slot + 0x400 + 32 * (f.preWritten + f.postWritten)

/-- The memory with an entry copied into the record being filled, and counted in its header (R170). -/
def Filling.stored (f : Filling) (x : HistoryEntry) (mem : Memory) : Memory :=
  writeWord (writeWords mem f.place x.words) (slotOffset f.slot + 0x2C) (wordOfNat (f.postWritten + 1))

section Stored

variable (f : Filling) (x : HistoryEntry) (mem : Memory) (hwf : Memory.wf mem = true)

include hwf

theorem Filling.readByte_stored (a : Nat) (hplace : a < f.place ∨ f.place + 32 ≤ a)
    (hlow : a ≠ slotOffset f.slot + 0x2C) (hhigh : a ≠ slotOffset f.slot + 0x2D) :
    readByte (f.stored x mem) a = readByte mem a := by
  rw [Filling.stored, readByte_writeWord_other _ _ _ _ (wf_writeWords _ _ _ hwf) hlow hhigh,
    readByte_writeWords_other _ _ _ _ hwf (by rwa [x.words_length])]

/-- The count stands in the header, below every entry. -/
theorem Filling.readWords_stored : readWords (f.stored x mem) f.place 16 = x.words := by
  have hkept : ∀ b, f.place ≤ b → b < f.place + 2 * 16 →
      readByte (f.stored x mem) b = readByte (writeWords mem f.place x.words) b := fun b hb _ => by
    unfold place at hb
    exact readByte_writeWord_other _ _ _ _ (wf_writeWords _ _ _ hwf) (by omega) (by omega)
  rw [readWords_congr _ _ _ _ hkept]
  exact readWords_writeWords_same mem f.place x.words hwf

theorem Filling.readWord_stored_count :
    readWord (f.stored x mem) (slotOffset f.slot + 0x2C) = wordOfNat (f.postWritten + 1) :=
  readWord_writeWord_same _ _ _ (wf_writeWords _ _ _ hwf)

end Stored

section Frame

variable (p : Part)

/-- The part with this moment's entry in its ring (R165). -/
def historyTaken : Part :=
  p.setTrip { p.trip with history := appendRing Config.historyCapacity p.trip.history (historyEntry p) }

theorem tripFrame_of_none (h : p.trip.filling = none) : tripFrame p = .only (historyTaken p) := by
  simp only [tripFrame, historyTaken, Part.setTrip_trip, h]

theorem tripFrame_of_some (f : Filling) (h : p.trip.filling = some f) :
    tripFrame p =
      { part := ((historyTaken p).setMem (f.stored (historyEntry p) p.exch.mem)).setTrip
          { p.trip with
            history := appendRing Config.historyCapacity p.trip.history (historyEntry p)
            filling := some { f with postWritten := f.postWritten + 1, frames := f.frames + 1 } }
        due := if f.postWritten + 1 = f.postTrip then [.recordClose] else [] } := by
  simp only [tripFrame, historyTaken, Part.setTrip_trip, Part.setTrip_exch, h, Filling.stored, Filling.place]

theorem tripFrame_history :
    (tripFrame p).part.trip.history = appendRing Config.historyCapacity p.trip.history (historyEntry p) := by
  cases h : p.trip.filling with
  | none => rw [tripFrame_of_none p h, Effect.only, historyTaken, Part.setTrip_trip]
  | some f => rw [tripFrame_of_some p f h, Part.setTrip_trip]

theorem tripFrame_keeps : Part.keeps [.trip, .exch] p (tripFrame p).part := by
  have htaken : Part.keeps [.trip, .exch] p (historyTaken p) := (Part.keeps.refl _ p).setTrip _
  cases h : p.trip.filling with
  | none => rwa [tripFrame_of_none p h]
  | some f =>
    rw [tripFrame_of_some p f h]
    exact (htaken.setMem _).setTrip _

end Frame

/-- Settles O60: the entry of this moment in the ring, and in the record where one is being filled. -/
theorem historyAppended : Obligations.HistoryAppended := by
  intro p hwf work q
  have hhistory : q.trip.history = appendRing Config.historyCapacity p.trip.history (historyEntry p) :=
    tripFrame_history p
  refine ⟨tripFrame_keeps p, historyEntry p, historyEntry_frame p, fun m => ?motor, rfl, historyEntry_vib p,
    ?level, rfl, fun h => hhistory.trans (appendRing_of_lt _ _ _ h),
    fun h => hhistory.trans (appendRing_of_full _ _ _ h (by decide)), fun h => ?quiet, fun f h => ?filling⟩
  case motor =>
    rw [historyEntry_motor]
    exact ⟨rfl, rfl, rfl, rfl, rfl, rfl⟩
  case level =>
    intro counts g
    have hcounts : ∀ c, counts c ↔ levelCounts (p.vib.channel.get c).state = true :=
      fun c => (levelCounts_iff _).symm
    simp only [hcounts, historyEntry_level]
    exact ⟨trivial, level_le_groupLevel p g, groupLevel_attained p g⟩
  case quiet =>
    have hwork : work = .only (historyTaken p) := tripFrame_of_none p h
    have hpart : q = historyTaken p := congrArg Effect.part hwork
    refine ⟨congrArg Effect.due hwork, ?_, ?_⟩ <;> rw [hpart, historyTaken]
    · rw [Part.setTrip_exch]
    · rw [Part.setTrip_trip]
  case filling =>
    have hwork : work = _ := tripFrame_of_some p f h
    have hmem : q.exch.mem = f.stored (historyEntry p) p.exch.mem := by
      simp only [q, hwork, Part.setTrip_exch, Part.setMem_mem]
    have hguard : q.exch.guardCount = p.exch.guardCount ∧ q.exch.guardedOffset = p.exch.guardedOffset := by
      simp only [q, hwork, Part.setTrip_exch, Part.setMem_guardCount, Part.setMem_guardedOffset, historyTaken,
        and_self]
    have htrip : q.trip = { p.trip with
        history := appendRing Config.historyCapacity p.trip.history (historyEntry p)
        filling := some { f with postWritten := f.postWritten + 1, frames := f.frames + 1 } } := by
      simp only [q, hwork, Part.setTrip_trip]
    refine ⟨congrArg Effect.due hwork, by rw [htrip], ?words, ?count, fun a ha => ?other, hguard⟩
    case words =>
      rw [hmem]
      exact f.readWords_stored _ _ hwf
    case count =>
      rw [hmem]
      exact f.readWord_stored_count _ _ hwf
    case other =>
      rw [not_or, not_or, not_and_or, not_le, not_lt] at ha
      obtain ⟨hplace, hlow, hhigh⟩ := ha
      rw [hmem]
      exact f.readByte_stored _ _ hwf a hplace hlow hhigh

end Sys2Proof.Machine
end

section
/-! The phases of a self-test: settling, measuring, recovering, and the cell with the outcomes (R26, R60, R149,
R150). -/

namespace Sys2Proof.Machine

/-! ## The end of a self-test's cell -/

theorem finishSelftest_of_none (code : ResultCode) (values : List Word) (p : Part)
    (h : p.orders.selftest = none) : finishSelftest code values p = p := by
  simp only [finishSelftest, h]

theorem finishSelftest_of_some (code : ResultCode) (values : List Word) (p : Part) (k : CellId)
    (h : p.orders.selftest = some k) :
    finishSelftest code values p = finishCell k code values (p.setOrders { p.orders with selftest := none }) := by
  simp only [finishSelftest, h]

/-! ## Measuring ends (R149) -/

section Outcome

variable (s : Settings) (c : Accel) (ch : Channel)

theorem testOutcome_invalid (h : s.window / 8 < ch.invalid) : testOutcome s c ch = 3 := if_pos h

/-- A floor root is determined by its bounds. -/
theorem eq_isqrt {n level : Nat} (hle : level * level ≤ n) (hlt : n < (level + 1) * (level + 1)) :
    level = isqrt n := by
  obtain ⟨hle', hlt'⟩ := isqrt_bounds n
  exact le_antisymm (Nat.lt_succ_iff.1 (Nat.mul_self_lt_mul_self_iff.1 (hle.trans_lt hlt')))
    (Nat.lt_succ_iff.1 (Nat.mul_self_lt_mul_self_iff.1 (hle'.trans_lt hlt)))

theorem testOutcome_judged (h : ch.invalid ≤ s.window / 8) (level : Nat)
    (hle : level * level ≤ ch.accumulator / s.window)
    (hlt : ch.accumulator / s.window < (level + 1) * (level + 1)) :
    testOutcome s c ch = if (s.selftest.get c).low ≤ level ∧ level ≤ (s.selftest.get c).high then 1 else 2 := by
  rw [eq_isqrt hle hlt]
  exact if_neg (not_lt.2 h)

end Outcome

section Measuring

variable (p : Part) (t : Selftest)

/-- The outcomes of a self-test whose measuring ends (R149). -/
def testOutcomes : PerAccel Nat :=
  PerAccel.ofFun (fun c =>
    if t.set.get c then testOutcome p.settings c (p.vib.channel.get c) else outcomeDisabled)

/-- The channels with fresh windows in the test set. -/
def testWindowsFresh : PerAccel Channel :=
  PerAccel.ofFun (fun c =>
    let ch := p.vib.channel.get c
    if t.set.get c then { ch with accumulator := 0, samples := 0, invalid := 0 } else ch)

theorem testOutcomes_of_out (c : Accel) (h : t.set.get c = false) : (testOutcomes p t).get c = 0 := by
  rw [testOutcomes, PerAccel.get_ofFun, h]
  rfl

theorem testOutcomes_of_in (c : Accel) (h : t.set.get c = true) :
    (testOutcomes p t).get c = testOutcome p.settings c (p.vib.channel.get c) := by
  rw [testOutcomes, PerAccel.get_ofFun, if_pos h]

/-- The part with measuring ended, before the test lines are released. -/
def testMeasured : Part :=
  p.setVib { p.vib with
    channel := testWindowsFresh p t
    test := some { t with phase := .recovering, count := 0, outcomes := testOutcomes p t } }

theorem selftestMeasuringEnd_eq (h : p.vib.test = some t) :
    selftestMeasuringEnd p = assertTestLines (PerAccel.ofFun (fun _ => false)) (testMeasured p t) := by
  simp only [selftestMeasuringEnd, h, testMeasured, testWindowsFresh, testOutcomes]

theorem selftestSettlingEnd_eq (h : p.vib.test = some t) :
    selftestSettlingEnd p =
      p.setVib { p.vib with test := some { t with phase := .measuring, count := 0 } } := by
  simp only [selftestSettlingEnd, h]

/-! ## Recovering ends (R150) -/

/-- The part with the unit idle and fresh windows and runs in the test set. -/
def testRecovered : Part :=
  p.setVib { p.vib with
    channel := PerAccel.ofFun (fun c =>
      if t.set.get c then (p.vib.channel.get c).windowCleared else p.vib.channel.get c)
    test := none }

/-- FAIL if some outcome is FAIL, else PASS (R26). -/
def testCode : ResultCode := if t.outcomes.toList.contains 2 then .fail else .pass

theorem selftestEnd_eq (h : p.vib.test = some t) :
    selftestEnd p = finishSelftest (testCode t) (t.outcomes.toList.map wordOfNat) (testRecovered p t) := by
  have hcode : t.outcomes.toList.any (fun o => o == outcomeFail) = t.outcomes.toList.contains 2 := by
    rw [List.contains_eq_any_beq]
    exact List.any_congr rfl fun _ => BEq.comm
  simp only [selftestEnd, h, hcode, testRecovered, testCode]

theorem testRecovered_keeps : Part.keeps [.vib] p (testRecovered p t) := (Part.keeps.refl _ p).setVib _

/-- The end of a self-test that holds a cell, on the cell, the entry and ORDER. -/
theorem selftestEnd_finished (h : p.vib.test = some t) (hwf : Memory.wf p.exch.mem = true) (k : CellId)
    (hk : p.orders.selftest = some k) :
    CellFinished k (testCode t) (t.outcomes.toList.map wordOfNat) p (selftestEnd p) ∧
    (selftestEnd p).orders = { p.orders with selftest := none } ∧
    Part.raisesOnly [.order] p (selftestEnd p) ∧ Part.storesOnly (cellAnswerByte k) p (selftestEnd p) ∧
    Part.keeps [.exch, .attn, .orders, .vib] p (selftestEnd p) := by
  have hwrites : p.Writes (cellAnswerByte k) ((testRecovered p t).setOrders { p.orders with selftest := none }) :=
    (Part.Writes.refl _ p).of_exch rfl rfl
  rw [selftestEnd_eq p t h, finishSelftest_of_some _ _ (testRecovered p t) k hk]
  exact ⟨hwrites.finishedNow hwf k _ _, rfl, (Part.RaisesOrderAtMost.of_attn rfl).raisesOnly_finish k _ _,
    (hwrites.finish k _ _ (fun _ => cellResultByte.answer)).storesOnly hwf,
    (((testRecovered_keeps p t).mono (by decide)).setOrders _).finish k _ _⟩

theorem selftestEnd_vib (h : p.vib.test = some t) : (selftestEnd p).vib = (testRecovered p t).vib := by
  rw [selftestEnd_eq p t h, finishSelftest_vib]

end Measuring

/-- Settles O50: the settling end, the measuring end with its outcomes, and the end with the cell. -/
theorem selftestPhases : Obligations.SelftestPhases := by
  intro s rest t ht hwf window
  refine ⟨fun ha => ?settling, fun ha => ?measuring, fun ha => ?recovering⟩
  case settling =>
    rw [← selftestSettlingEnd_eq s.part t ht]
    exact occurWith_head _ _ s rest rfl ha
  case measuring =>
    refine ⟨selftestMeasuringEnd s.part,
      { t with phase := .recovering, count := 0, outcomes := testOutcomes s.part t },
      occurWith_head _ _ s rest rfl ha, rfl, ?_⟩
    rw [selftestMeasuringEnd_eq s.part t ht]
    refine ⟨rfl, fun c => ⟨PerAccel.get_ofFun _ c, testOutcomes_of_out s.part t c, fun hin hinvalid => ?_,
      fun hin hvalid level hle hlt => ?_⟩, fun c => ?_, rfl, ?_⟩
    · exact (testOutcomes_of_in s.part t c hin).trans (testOutcome_invalid _ c _ hinvalid)
    · exact (testOutcomes_of_in s.part t c hin).trans (testOutcome_judged _ c _ hvalid level hle hlt)
    · rw [testLine_assertTestLines, PerAccel.get_ofFun]
    · exact ((Part.keeps.refl _ s.part).setVib _).setAcq _
  case recovering =>
    refine ⟨selftestEnd s.part, occurWith_head _ _ s rest rfl ha, ?_, fun c => ?_, fun hnone => ?_,
      selftestEnd_finished s.part t ht hwf⟩
    · rw [selftestEnd_vib s.part t ht]
      rfl
    · rw [selftestEnd_vib s.part t ht]
      exact PerAccel.get_ofFun _ c
    · rw [selftestEnd_eq s.part t ht, finishSelftest_of_none _ _ (testRecovered s.part t) hnone]
      exact testRecovered_keeps s.part t

end Sys2Proof.Machine
end

section
/-! What a report of a cause changes, seen from another cause (R155 to R158). -/

namespace Sys2Proof.Machine

/-! ## The set after a cause is put into it -/

section LatchInto

variable (l : Latched) (ls : List Latched) (c : Cause)

theorem isLatched_cons (x : Latched) : isLatched (x :: ls) c = (x.cause == c || isLatched ls c) := List.any_cons

theorem latchedClass_cons_same (x : Latched) (h : x.cause = c) : latchedClass (x :: ls) c = some x.cls := by
  simp only [latchedClass, List.find?_cons, beq_iff_eq.2 h, Option.map_some]

theorem latchedClass_cons_other (x : Latched) (h : x.cause ≠ c) : latchedClass (x :: ls) c = latchedClass ls c := by
  simp only [latchedClass, List.find?_cons, beq_eq_false_iff_ne.2 h]

theorem isLatched_latchInto : isLatched (latchInto l ls) c = (l.cause == c || isLatched ls c) := by
  induction ls with
  | nil => exact isLatched_cons [] c l
  | cons x xs ih =>
    rw [latchInto]
    split
    · exact isLatched_cons _ c l
    · split
      next hnumber =>
        rw [isLatched_cons, isLatched_cons, Cause.number_injective _ _ hnumber, ← Bool.or_assoc, Bool.or_self]
      next => rw [isLatched_cons, isLatched_cons, ih, Bool.or_left_comm]

/-- A cause that was not in the set has the class that it was put in with. -/
theorem latchedClass_latchInto_new (h : isLatched ls l.cause = false) :
    latchedClass (latchInto l ls) l.cause = some l.cls := by
  induction ls with
  | nil => exact latchedClass_cons_same [] _ l rfl
  | cons x xs ih =>
    rw [isLatched_cons, Bool.or_eq_false_iff, beq_eq_false_iff_ne] at h
    obtain ⟨hne, hrest⟩ := h
    rw [latchInto]
    split
    · exact latchedClass_cons_same _ _ l rfl
    · rw [if_neg (fun hnumber => hne (Cause.number_injective _ _ hnumber).symm), latchedClass_cons_other _ _ x hne]
      exact ih hrest

/-- Every other cause keeps its class. -/
theorem latchedClass_latchInto_other (h : l.cause ≠ c) :
    latchedClass (latchInto l ls) c = latchedClass ls c := by
  induction ls with
  | nil => exact latchedClass_cons_other [] c l h
  | cons x xs ih =>
    rw [latchInto]
    split
    · exact latchedClass_cons_other _ c l h
    · split
      next hnumber =>
        have hx : x.cause ≠ c := Cause.number_injective _ _ hnumber ▸ h
        rw [latchedClass_cons_other _ c l h, latchedClass_cons_other _ c x hx]
      next =>
        by_cases hx : x.cause = c
        · rw [latchedClass_cons_same _ c x hx, latchedClass_cons_same _ c x hx]
        · rw [latchedClass_cons_other _ c x hx, latchedClass_cons_other _ c x hx, ih]

end LatchInto

/-! ## The report -/

section Report

variable (c d : Cause) (p : Part)

theorem report_keeps : Part.keeps [.exch, .attn, .orders, .seq, .trip, .cap] p (report c p) := fun b hb => by
  cases b with
  | phase => exact report_phase c p
  | pins => exact report_pins c p
  | acq => exact report_acq c p
  | ctl => exact report_ctl c p
  | links => exact report_links c p
  | allot => exact report_allot c p
  | vib => exact report_vib c p
  | exch | attn | orders | seq | trip | cap => exact absurd (by decide) hb

theorem report_latched (h : isLatched p.trip.latched c = false) :
    (report c p).trip.latched = latchInto { cause := c, cls := p.settings.classOf c } p.trip.latched := by
  rw [report_of_new c p h, tripEvent_latched]

theorem isLatched_report :
    isLatched (report c p).trip.latched d = (c == d || isLatched p.trip.latched d) := by
  cases h : isLatched p.trip.latched c with
  | false => rw [report_latched c p h, isLatched_latchInto]
  | true =>
    rw [report_of_latched c p h]
    by_cases hcd : c = d
    · rw [← hcd, h, Bool.or_true]
    · rw [beq_eq_false_iff_ne.2 hcd, Bool.false_or]

theorem latchedClass_report_new (h : isLatched p.trip.latched c = false) :
    latchedClass (report c p).trip.latched c = some (p.settings.classOf c) := by
  rw [report_latched c p h]
  exact latchedClass_latchInto_new { cause := c, cls := p.settings.classOf c } _ h

theorem latchedClass_report_other (h : c ≠ d) :
    latchedClass (report c p).trip.latched d = latchedClass p.trip.latched d := by
  cases hlatched : isLatched p.trip.latched c with
  | false => rw [report_latched c p hlatched, latchedClass_latchInto_other _ _ _ h]
  | true => rw [report_of_latched c p hlatched]

theorem report_sequence (h : isLatched p.trip.latched c = false) :
    (report c p).trip.sequence = p.trip.sequence + 1#16 := by
  rw [report_of_new c p h, tripEvent_sequence]

theorem raised_trip_tripEvent (cls : TripClass) : (tripEvent c cls p).raised .trip = true := by
  refine (raised_raiseSource .trip .trip _).trans ?_
  rw [beq_self_eq_true, Bool.or_true]

/-- A trip event raises TRIP, and a report that is none leaves it (R158). -/
theorem raised_trip_report (h : isLatched p.trip.latched c = false ∨ p.raised .trip = true) :
    (report c p).raised .trip = true := by
  cases hlatched : isLatched p.trip.latched c with
  | false =>
    rw [report_of_new c p hlatched]
    exact raised_trip_tripEvent c p _
  | true =>
    rw [report_of_latched c p hlatched]
    exact h.resolve_left (by rw [hlatched]; decide)

end Report

end Sys2Proof.Machine
end

section
/-! The groups at the end of a scan's vibration work: their states, their holds, and the reports of VIB_DANGER
(R144, R145, R147). -/

namespace Sys2Proof.Machine

theorem PerGroup.set_get_self {α : Type} (x : PerGroup α) (g : VibGroup) : x.set g (x.get g) = x := by
  cases g <;> rfl

theorem PerGroup.get_set_other {α : Type} (x : PerGroup α) (g k : VibGroup) (v : α) (h : k ≠ g) :
    (x.set g v).get k = x.get k := by
  cases g <;> cases k <;> first | rfl | exact absurd rfl h

/-! ## The state of a group (R144) -/

section FormGroup

variable {xs : List ChannelState}

theorem formGroup_of_disabled (h : ∀ x ∈ xs, x = .disabled) : formGroup xs = .disabled := by
  have hnone : xs.filter (fun x => x != .disabled) = [] :=
    List.filter_eq_nil_iff.2 fun x hx => by rw [h x hx]; decide
  rw [formGroup, hnone]
  rfl

/-- A group with a channel enabled goes by its enabled channels. -/
theorem formGroup_of_enabled (h : ∃ x ∈ xs, x ≠ .disabled) :
    formGroup xs =
      if ∀ x ∈ xs, x ≠ .disabled → x = .invalid then .lost
      else if .danger ∈ xs then .danger else if .alert ∈ xs then .alert else .normal := by
  obtain ⟨x, hx, hne⟩ := h
  have hsome : (xs.filter (fun x => x != .disabled)).isEmpty = false :=
    List.isEmpty_eq_false_iff_exists_mem.2 ⟨x, List.mem_filter.2 ⟨hx, bne_iff_ne.2 hne⟩⟩
  have hall : ((xs.filter (fun x => x != .disabled)).all (fun x => x == .invalid) = true) =
      ∀ x ∈ xs, x ≠ .disabled → x = .invalid := by
    simp only [List.all_eq_true, List.mem_filter, bne_iff_ne, beq_iff_eq, and_imp]
  have hany : ∀ y : ChannelState, y ≠ .disabled →
      ((xs.filter (fun x => x != .disabled)).any (fun x => x == y) = true) = (y ∈ xs) := fun y hy => by
    simp only [List.any_eq_true, List.mem_filter, bne_iff_ne, beq_iff_eq, exists_eq_right, hy, and_true,
      ne_eq, not_false_eq_true]
  simp only [formGroup, hsome, hall, hany _ (show ChannelState.danger ≠ .disabled by decide),
    hany _ (show ChannelState.alert ≠ .disabled by decide)]
  rfl

theorem formGroup_of_lost (h : ∃ x ∈ xs, x ≠ .disabled) (hall : ∀ x ∈ xs, x ≠ .disabled → x = .invalid) :
    formGroup xs = .lost := (formGroup_of_enabled h).trans (if_pos hall)

/-- With a channel judged, the worst of those that are judged names the state. -/
theorem formGroup_of_judged {x : ChannelState} (hx : x ∈ xs) (hne : x ≠ .disabled) (hvalid : x ≠ .invalid) :
    formGroup xs = if .danger ∈ xs then .danger else if .alert ∈ xs then .alert else .normal :=
  (formGroup_of_enabled ⟨x, hx, hne⟩).trans (if_neg fun hall => hvalid (hall x hx hne))

theorem formGroup_of_danger (h : .danger ∈ xs) : formGroup xs = .danger :=
  (formGroup_of_judged h (by decide) (by decide)).trans (if_pos h)

theorem formGroup_of_alert (h : .alert ∈ xs) (hdanger : .danger ∉ xs) : formGroup xs = .alert :=
  (formGroup_of_judged h (by decide) (by decide)).trans ((if_neg hdanger).trans (if_pos h))

theorem formGroup_of_normal (h : .normal ∈ xs) (hdanger : .danger ∉ xs) (halert : .alert ∉ xs) :
    formGroup xs = .normal :=
  (formGroup_of_judged h (by decide) (by decide)).trans ((if_neg hdanger).trans (if_neg halert))

end FormGroup

/-! ## One group -/

section Group

variable (p : Part) (g : VibGroup)

/-- The states of the channels of a group. -/
def memberStates : List ChannelState := g.members.map (fun c => (p.vib.channel.get c).state)

theorem mem_memberStates_iff (x : ChannelState) :
    x ∈ memberStates p g ↔ ∃ c : Accel, c.group = g ∧ (p.vib.channel.get c).state = x := by
  simp only [memberStates, List.mem_map, Accel.mem_members_iff]

/-- A group's record with its state formed, and its hold as a change of state leaves it (R144, R145). -/
def groupRenewed : GroupWatch :=
  let w := p.vib.group.get g
  let new := formGroup (memberStates p g)
  if new = w.state then w
  else { w with state := new, hold := holdAfter w.hold w.state new (p.settings.groups.get g).holdCode }

theorem groupRenewed_state : (groupRenewed p g).state = formGroup (memberStates p g) := by
  unfold groupRenewed
  dsimp only
  split
  next h => exact h.symm
  next => rfl

theorem groupRenewed_published :
    (groupRenewed p g).factor = (p.vib.group.get g).factor ∧
    (groupRenewed p g).holdShown = (p.vib.group.get g).holdShown := by
  unfold groupRenewed
  dsimp only
  split <;> exact ⟨rfl, rfl⟩

theorem groupRenewed_of_same (h : (groupRenewed p g).state = (p.vib.group.get g).state) :
    groupRenewed p g = p.vib.group.get g := by
  rw [groupRenewed_state] at h
  exact if_pos h

theorem groupRenewed_hold (h : (groupRenewed p g).state ≠ (p.vib.group.get g).state) :
    (groupRenewed p g).hold = holdAfter (p.vib.group.get g).hold (p.vib.group.get g).state
      (groupRenewed p g).state (p.settings.groups.get g).holdCode := by
  rw [groupRenewed_state] at h ⊢
  exact congrArg GroupWatch.hold (if_neg h)

/-- Whether a group enters DANGER with its escalation bit set: only such an entry reports (R147). -/
def entersDanger : Bool :=
  (groupRenewed p g).state == .danger && (p.vib.group.get g).state != .danger &&
    p.settings.escalation.getLsbD g.number

theorem entersDanger_iff : entersDanger p g = true ↔
    (groupRenewed p g).state = .danger ∧ (p.vib.group.get g).state ≠ .danger ∧
      p.settings.escalation.getLsbD g.number = true := by
  rw [entersDanger, Bool.and_eq_true, Bool.and_eq_true, beq_iff_eq, bne_iff_ne, and_assoc]

/-- The part with a group's record replaced by the one that is formed. -/
def groupSet : Part := p.setGroup g (groupRenewed p g)

theorem groupSet_of_same (h : (groupRenewed p g).state = (p.vib.group.get g).state) : groupSet p g = p := by
  rw [groupSet, groupRenewed_of_same p g h, Part.setGroup, PerGroup.set_get_self]
  rfl

theorem groupFormed_eq :
    groupFormed p g = if entersDanger p g then report (.vibDanger g) (groupSet p g) else groupSet p g := by
  by_cases hsame : (groupRenewed p g).state = (p.vib.group.get g).state
  case pos =>
    have hquiet : ¬ entersDanger p g = true := fun h => by
      obtain ⟨hnew, hold, _⟩ := (entersDanger_iff p g).1 h
      exact hold (hsame.symm.trans hnew)
    rw [if_neg hquiet, groupSet_of_same p g hsame]
    exact if_pos ((groupRenewed_state p g).symm.trans hsame)
  case neg =>
    have hset : p.setGroup g { p.vib.group.get g with
        state := (groupRenewed p g).state
        hold := holdAfter (p.vib.group.get g).hold (p.vib.group.get g).state (groupRenewed p g).state
          (p.settings.groups.get g).holdCode } = groupSet p g := by
      rw [groupRenewed_state] at hsame ⊢
      rw [groupSet, groupRenewed, if_neg hsame]
    have henters : ((groupRenewed p g).state = .danger ∧ p.settings.escalatesGroup g = true) ↔
        entersDanger p g = true := by
      rw [entersDanger_iff]
      exact ⟨fun ⟨hnew, hesc⟩ => ⟨hnew, fun hold => hsame (hnew.trans hold.symm), hesc⟩,
        fun ⟨hnew, _, hesc⟩ => ⟨hnew, hesc⟩⟩
    rw [← hset]
    simp only [← henters]
    rw [groupRenewed_state] at hsame ⊢
    exact if_neg hsame

/-- A group that does not enter DANGER, or enters it with its cause latched, does not report (R147, R155). -/
theorem groupFormed_of_quiet (h : ¬ (entersDanger p g = true ∧ isLatched p.trip.latched (.vibDanger g) = false)) :
    groupFormed p g = groupSet p g := by
  rw [groupFormed_eq]
  split
  next hentered => exact report_of_latched _ (groupSet p g) (Bool.of_not_eq_false fun hnew => h ⟨hentered, hnew⟩)
  next => rfl

/-- The report of a group that enters DANGER, by the class that its bit chooses (R147, R156). -/
theorem groupFormed_reported (h : entersDanger p g = true) (hnew : isLatched p.trip.latched (.vibDanger g) = false)
    (hwf : Memory.wf p.exch.mem = true) :
    if p.settings.classChoices.getLsbD g.number then
      TripTaken (.vibDanger g) .inhibitAll (groupSet p g) (groupFormed p g) ∧
        (groupFormed p g).seq = (inhibitAllOrder (groupSet p g)).seq
    else TripTaken (.vibDanger g) .rampAll (groupSet p g) (groupFormed p g) ∧
        (groupFormed p g).seq = (rampAllOrder (groupSet p g)).seq := by
  have hclass : (groupSet p g).settings.classOf (.vibDanger g) =
      if p.settings.classChoices.getLsbD g.number then .inhibitAll else .rampAll := rfl
  rw [groupFormed_eq, if_pos h, report_of_new _ (groupSet p g) hnew, hclass]
  split
  · exact ⟨tripEvent_taken _ _ (groupSet p g) hwf, tripEvent_seq_inhibitAll _ (groupSet p g)⟩
  · exact ⟨tripEvent_taken _ _ (groupSet p g) hwf, tripEvent_seq_rampAll _ (groupSet p g)⟩

theorem groupFormed_vib : (groupFormed p g).vib = (groupSet p g).vib := by
  rw [groupFormed_eq]
  split
  · exact report_vib _ _
  · rfl

theorem groupFormed_settings : (groupFormed p g).settings = p.settings := by
  rw [groupFormed_eq]
  split
  · exact report_settings _ _
  · rfl

end Group

/-! ## The hold at a change of state (R145) -/

section HoldAfter

variable {old new : VibState}

theorem holdAfter_down_zero {code : Nat} (h : VibState.rank new < VibState.rank old) (hcode : code = 0)
    (hold : Option Hold) : holdAfter hold old new code = hold := (if_pos h).trans (if_pos hcode)

theorem holdAfter_down_none {code : Nat} (h : VibState.rank new < VibState.rank old) (hcode : code ≠ 0) :
    holdAfter none old new code = some { held := old, remaining := holdFrames code } :=
  (if_pos h).trans (if_neg hcode)

theorem holdAfter_down_some {code : Nat} (h : VibState.rank new < VibState.rank old) (hcode : code ≠ 0)
    (x : Hold) : holdAfter (some x) old new code =
      some { held := if VibState.rank old < VibState.rank x.held then x.held else old
             remaining := holdFrames code } :=
  (if_pos h).trans (if_neg hcode)

theorem holdAfter_up_none (h : VibState.rank old ≤ VibState.rank new) (code : Nat) :
    holdAfter none old new code = none := if_neg (not_lt.2 h)

theorem holdAfter_up_some (h : VibState.rank old ≤ VibState.rank new) (code : Nat) (x : Hold) :
    holdAfter (some x) old new code =
      if VibState.rank x.held ≤ VibState.rank new then none else some x := if_neg (not_lt.2 h)

end HoldAfter

end Sys2Proof.Machine
end

section
/-! The four groups one after the other, and what they leave of the part together (R144, R147, R155 to R158;
log 33). -/

namespace Sys2Proof.Machine

/-! ## Groups formed so far -/

/-- From `p` to `x` the groups of `done` have been formed, and of the watch and the settings nothing else has
changed. -/
structure Part.GroupsFormed (p : Part) (done : List VibGroup) (x : Part) : Prop where
  settings : x.settings = p.settings
  vib : x.vib = { p.vib with group := x.vib.group }
  formed : ∀ g ∈ done, x.vib.group.get g = groupRenewed p g
  waiting : ∀ g, g ∉ done → x.vib.group.get g = p.vib.group.get g
  canonical : Memory.wf p.exch.mem = true → Memory.wf x.exch.mem = true

namespace Part.GroupsFormed

variable {p x : Part} {done : List VibGroup} {g : VibGroup}

theorem nil (p : Part) : p.GroupsFormed [] p := ⟨rfl, rfl, nofun, fun _ _ => rfl, id⟩

/-- A group that waits is formed as it would have been at first. -/
theorem renewed (h : p.GroupsFormed done x) (hg : g ∉ done) : groupRenewed x g = groupRenewed p g := by
  have hchannel : x.vib.channel = p.vib.channel := by rw [h.vib]
  unfold groupRenewed memberStates
  rw [hchannel, h.settings, h.waiting g hg]

theorem enters (h : p.GroupsFormed done x) (hg : g ∉ done) : entersDanger x g = entersDanger p g := by
  rw [entersDanger, h.renewed hg, h.waiting g hg, h.settings, entersDanger]

theorem next (h : p.GroupsFormed done x) (hg : g ∉ done) : p.GroupsFormed (done ++ [g]) (groupFormed x g) := by
  have hvib : (groupFormed x g).vib = { x.vib with group := x.vib.group.set g (groupRenewed p g) } := by
    rw [groupFormed_vib, groupSet, h.renewed hg]
    rfl
  refine ⟨(groupFormed_settings x g).trans h.settings, ?_, fun k hk => ?_, fun k hk => ?_,
    fun hwf => (groupFormed_preserves g (.refl x)).memory (h.canonical hwf)⟩
  · rw [hvib, h.vib]
  · rw [hvib]
    by_cases hkg : k = g
    · rw [hkg, PerGroup.get_set_same]
    · rw [PerGroup.get_set_other _ g k _ hkg]
      exact h.formed k ((List.mem_append.1 hk).resolve_right (mt List.mem_singleton.1 hkg))
  · rw [List.mem_append, not_or, List.mem_singleton] at hk
    rw [hvib, PerGroup.get_set_other _ g k _ hk.2, h.waiting k hk.1]

end Part.GroupsFormed

/-! ## Groups that have reported so far -/

/-- Whether the forming of a group brings about a trip event (R147, R155). -/
def reportsDanger (p : Part) (g : VibGroup) : Bool :=
  entersDanger p g && !isLatched p.trip.latched (.vibDanger g)

theorem reportsDanger_iff (p : Part) (g : VibGroup) : reportsDanger p g = true ↔
    entersDanger p g = true ∧ isLatched p.trip.latched (.vibDanger g) = false := by
  rw [reportsDanger, Bool.and_eq_true, Bool.not_eq_true']

/-- From `p` to `x` those groups of `done` have reported that had to, and no other block has changed. -/
structure Part.GroupsReported (p : Part) (done : List VibGroup) (x : Part) : Prop where
  keeps : Part.keeps [.exch, .attn, .orders, .seq, .vib, .trip, .cap] p x
  quiet : (∀ g ∈ done, ¬ entersDanger p g = true) → Part.keeps [.vib] p x
  latched : ∀ c, isLatched x.trip.latched c = true ↔
    isLatched p.trip.latched c = true ∨ ∃ g ∈ done, c = .vibDanger g ∧ entersDanger p g = true
  cls : ∀ g ∈ done, reportsDanger p g = true →
    latchedClass x.trip.latched (.vibDanger g) = some (p.settings.classOf (.vibDanger g))
  sequence : x.trip.sequence = p.trip.sequence + BitVec.ofNat 16 (done.filter (reportsDanger p)).length
  raised : (∃ g ∈ done, reportsDanger p g = true) → x.raised .trip = true

namespace Part.GroupsReported

variable {p x : Part} {done : List VibGroup} {g : VibGroup}

theorem nil (p : Part) : p.GroupsReported [] p where
  keeps := Part.keeps.refl _ p
  quiet := fun _ => Part.keeps.refl _ p
  latched := fun _ => ⟨.inl, fun h => h.resolve_right (by rintro ⟨_, hg, _⟩; cases hg)⟩
  cls := nofun
  sequence := (BitVec.add_zero _).symm
  raised := by rintro ⟨_, hg, _⟩; cases hg

/-- The cause of a group that waits is latched as it was at first. -/
theorem latched_of_waiting (h : p.GroupsReported done x) (hg : g ∉ done) :
    isLatched x.trip.latched (.vibDanger g) = isLatched p.trip.latched (.vibDanger g) := by
  rw [Bool.eq_iff_iff, h.latched]
  refine or_iff_left ?_
  rintro ⟨k, hk, hcause, _⟩
  exact hg (Cause.vibDanger.inj hcause ▸ hk)

/-- What is done to the watch alone does not count. -/
theorem setVib (h : p.GroupsReported done x) (v : Vibration) : p.GroupsReported done (x.setVib v) :=
  ⟨h.keeps.setVib v, fun hq => (h.quiet hq).setVib v, h.latched, h.cls, h.sequence, h.raised⟩

theorem exists_mem_append_singleton_iff {q : VibGroup → Prop} :
    (∃ k ∈ done ++ [g], q k) ↔ (∃ k ∈ done, q k) ∨ q g := by
  simp only [List.mem_append, List.mem_singleton, or_and_right, exists_or, exists_eq_left]

theorem mem_of_reportsDanger (hquiet : entersDanger p g = false) {k : VibGroup} (hk : k ∈ done ++ [g])
    (hreports : reportsDanger p k = true) : k ∈ done := by
  refine (List.mem_append.1 hk).resolve_right fun hkg => ?_
  rw [List.mem_singleton.1 hkg, reportsDanger, hquiet, Bool.false_and] at hreports
  cases hreports

/-- A group that does not enter DANGER. -/
theorem next_of_quiet (h : p.GroupsReported done x) (hquiet : entersDanger p g = false) :
    p.GroupsReported (done ++ [g]) x where
  keeps := h.keeps
  quiet := fun hq => h.quiet fun k hk => hq k (List.mem_append_left _ hk)
  latched := fun c => by
    rw [h.latched, exists_mem_append_singleton_iff, hquiet]
    simp only [Bool.false_eq_true, and_false, or_false]
  cls := fun k hk hreports => h.cls k (mem_of_reportsDanger hquiet hk hreports) hreports
  sequence := by
    have hnot : reportsDanger p g = false := by rw [reportsDanger, hquiet, Bool.false_and]
    rw [List.filter_append, List.filter_singleton, hnot, cond_false, List.append_nil, h.sequence]
  raised := fun ⟨k, hk, hreports⟩ => h.raised ⟨k, mem_of_reportsDanger hquiet hk hreports, hreports⟩

/-- A group that enters DANGER. -/
theorem next_of_entered (h : p.GroupsReported done x) (hg : g ∉ done) (hset : x.settings = p.settings)
    (henters : entersDanger p g = true) : p.GroupsReported (done ++ [g]) (report (.vibDanger g) x) where
  keeps := h.keeps.trans ((report_keeps (.vibDanger g) x).mono (by decide))
  quiet := fun hq => absurd henters (hq g (List.mem_append_right _ (List.mem_singleton_self g)))
  latched := fun c => by
    rw [isLatched_report, Bool.or_eq_true, beq_iff_eq, h.latched, exists_mem_append_singleton_iff, or_comm,
      or_assoc, eq_comm (a := Cause.vibDanger g), henters]
    simp only [and_true]
  cls := fun k hk hreports => by
    rcases List.mem_append.1 hk with hk | hk
    · have hne : Cause.vibDanger g ≠ .vibDanger k := fun hcause => hg (Cause.vibDanger.inj hcause ▸ hk)
      rw [latchedClass_report_other _ _ x hne, h.cls k hk hreports]
    · rw [List.mem_singleton.1 hk] at hreports ⊢
      have hnew := ((reportsDanger_iff p g).1 hreports).2
      rw [latchedClass_report_new _ x ((h.latched_of_waiting hg).trans hnew), hset]
  sequence := by
    have hreports : reportsDanger p g = !isLatched p.trip.latched (.vibDanger g) := by
      rw [reportsDanger, henters, Bool.true_and]
    rw [List.filter_append, List.filter_singleton, hreports]
    cases hlatched : isLatched p.trip.latched (.vibDanger g) with
    | true =>
      rw [report_of_latched _ x ((h.latched_of_waiting hg).trans hlatched), Bool.not_true, cond_false,
        List.append_nil, h.sequence]
    | false =>
      rw [report_sequence _ x ((h.latched_of_waiting hg).trans hlatched), h.sequence, Bool.not_false, cond_true,
        List.length_append, List.length_singleton, BitVec.ofNat_add, BitVec.add_assoc]
  raised := by
    rintro ⟨k, hk, hreports⟩
    refine raised_trip_report _ x ?_
    rcases List.mem_append.1 hk with hk | hk
    · exact .inr (h.raised ⟨k, hk, hreports⟩)
    · rw [List.mem_singleton.1 hk] at hreports
      exact .inl ((h.latched_of_waiting hg).trans ((reportsDanger_iff p g).1 hreports).2)

theorem next (h : p.GroupsReported done x) (hf : p.GroupsFormed done x) (hg : g ∉ done) :
    p.GroupsReported (done ++ [g]) (groupFormed x g) := by
  have hset : p.GroupsReported done (groupSet x g) := h.setVib _
  rw [groupFormed_eq, hf.enters hg]
  cases henters : entersDanger p g with
  | true => exact hset.next_of_entered hg hf.settings henters
  | false => exact hset.next_of_quiet henters

end Part.GroupsReported

end Sys2Proof.Machine
end

section
/-! The four groups in their order, and what is formed of each (R144 to R147; log 33). -/

namespace Sys2Proof.Machine

theorem mem_vibGroups (g : VibGroup) : g ∈ VibGroup.all := by cases g <;> decide

section Chain

variable (p : Part)

/-- The part after pinion A, then after pinion B, then after the gear (log 33). -/
def pinionAFormed : Part := groupFormed p .pinionA
def pinionBFormed : Part := groupFormed (pinionAFormed p) .pinionB
def gearFormed : Part := groupFormed (pinionBFormed p) .gear

theorem runWork_vibrationGroups : runWork .vibrationGroups p = .only (vibrationGroups p) := by rw [runWork]

theorem runWork_vibrationGroups_part : (runWork .vibrationGroups p).part = vibrationGroups p := by
  rw [runWork_vibrationGroups, Effect.only]

theorem vibrationGroups_eq : vibrationGroups p = groupFormed (gearFormed p) .tyre := by
  rw [vibrationGroups, VibGroup.all, gearFormed, pinionBFormed, pinionAFormed, List.foldl_cons, List.foldl_cons,
    List.foldl_cons, List.foldl_cons, List.foldl_nil]

theorem pinionAFormed_formed : p.GroupsFormed [.pinionA] (pinionAFormed p) :=
  (Part.GroupsFormed.nil p).next (by decide)

theorem pinionBFormed_formed : p.GroupsFormed [.pinionA, .pinionB] (pinionBFormed p) :=
  (pinionAFormed_formed p).next (by decide)

theorem gearFormed_formed : p.GroupsFormed [.pinionA, .pinionB, .gear] (gearFormed p) :=
  (pinionBFormed_formed p).next (by decide)

theorem vibrationGroups_formed : p.GroupsFormed VibGroup.all (vibrationGroups p) := by
  rw [vibrationGroups_eq]
  exact (gearFormed_formed p).next (by decide)

theorem vibrationGroups_reported : p.GroupsReported VibGroup.all (vibrationGroups p) := by
  have hA : p.GroupsReported [.pinionA] (pinionAFormed p) := (Part.GroupsReported.nil p).next (.nil p) (by decide)
  have hB := hA.next (pinionAFormed_formed p) (g := .pinionB) (by decide)
  have hG := hB.next (pinionBFormed_formed p) (g := .gear) (by decide)
  rw [vibrationGroups_eq]
  exact hG.next (gearFormed_formed p) (by decide)

theorem vibrationGroups_group (g : VibGroup) : (vibrationGroups p).vib.group.get g = groupRenewed p g :=
  (vibrationGroups_formed p).formed g (mem_vibGroups g)

/-- As many trip events as there are groups that report. -/
theorem vibrationGroups_sequence (reporters : List VibGroup) (hnodup : reporters.Nodup)
    (hreporters : ∀ g, g ∈ reporters ↔ reportsDanger p g = true) :
    (vibrationGroups p).trip.sequence = p.trip.sequence + BitVec.ofNat 16 reporters.length := by
  have hperm : reporters.Perm (VibGroup.all.filter (reportsDanger p)) := by
    refine (List.perm_ext_iff_of_nodup hnodup ((by decide : VibGroup.all.Nodup).filter _)).2 fun g => ?_
    rw [hreporters, List.mem_filter, and_iff_right (mem_vibGroups g)]
  rw [(vibrationGroups_reported p).sequence, hperm.length_eq]

end Chain

/-! ## What is formed of one group, by its channels -/

section Record

variable (p : Part) (g : VibGroup)

/-- A channel of the group is in state `x`. -/
def groupHas (x : ChannelState) : Prop := ∃ c : Accel, c.group = g ∧ (p.vib.channel.get c).state = x

/-- A channel of the group is enabled. -/
def groupEnabled : Prop := ∃ c : Accel, c.group = g ∧ (p.vib.channel.get c).state ≠ .disabled

theorem groupEnabled_iff : groupEnabled p g ↔ ∃ x ∈ memberStates p g, x ≠ .disabled := by
  simp only [groupEnabled, mem_memberStates_iff, exists_exists_and_eq_and]

theorem groupRenewed_disabled (h : ¬ groupEnabled p g) : (groupRenewed p g).state = .disabled := by
  rw [groupEnabled_iff] at h
  exact (groupRenewed_state p g).trans (formGroup_of_disabled fun x hx => not_not.1 fun hne => h ⟨x, hx, hne⟩)

theorem groupRenewed_lost (h : groupEnabled p g)
    (hall : ∀ c : Accel, c.group = g ∧ (p.vib.channel.get c).state ≠ .disabled →
      (p.vib.channel.get c).state = .invalid) : (groupRenewed p g).state = .lost := by
  refine (groupRenewed_state p g).trans (formGroup_of_lost ((groupEnabled_iff p g).1 h) fun x hx hne => ?_)
  obtain ⟨c, hc, hcx⟩ := (mem_memberStates_iff p g x).1 hx
  rw [← hcx] at hne ⊢
  exact hall c ⟨hc, hne⟩

theorem groupRenewed_danger (h : groupHas p g .danger) : (groupRenewed p g).state = .danger :=
  (groupRenewed_state p g).trans (formGroup_of_danger ((mem_memberStates_iff p g _).2 h))

theorem groupRenewed_alert (h : groupHas p g .alert) (hdanger : ¬ groupHas p g .danger) :
    (groupRenewed p g).state = .alert :=
  (groupRenewed_state p g).trans (formGroup_of_alert ((mem_memberStates_iff p g _).2 h)
    (mt (mem_memberStates_iff p g _).1 hdanger))

theorem groupRenewed_normal (h : groupHas p g .normal) (hdanger : ¬ groupHas p g .danger)
    (halert : ¬ groupHas p g .alert) : (groupRenewed p g).state = .normal :=
  (groupRenewed_state p g).trans (formGroup_of_normal ((mem_memberStates_iff p g _).2 h)
    (mt (mem_memberStates_iff p g _).1 hdanger) (mt (mem_memberStates_iff p g _).1 halert))

/-- A group that goes down in rank changes its state. -/
theorem groupRenewed_hold_of_down
    (h : VibState.rank (groupRenewed p g).state < VibState.rank (p.vib.group.get g).state) :
    (groupRenewed p g).hold = holdAfter (p.vib.group.get g).hold (p.vib.group.get g).state
      (groupRenewed p g).state (p.settings.groups.get g).holdCode :=
  groupRenewed_hold p g fun heq => (heq ▸ h).false

end Record

/-- Settles O49: the groups in their order, each formed as it would have been alone; those that enter DANGER
escalated report. -/
theorem groupsFormed : Obligations.GroupsFormed := by
  intro p q entered
  have hq : q = vibrationGroups p := runWork_vibrationGroups_part p
  clear_value q
  have hgroup : ∀ g, q.vib.group.get g = groupRenewed p g := by
    rw [hq]
    exact vibrationGroups_group p
  have hentered : ∀ g, entered g ↔ entersDanger p g = true := fun g => by
    rw [entersDanger_iff, ← hgroup]
  have hreports : ∀ g, reportsDanger p g = true ↔
      entered g ∧ isLatched p.trip.latched (.vibDanger g) = false := fun g => by
    rw [reportsDanger_iff, hentered]
  have hformed := vibrationGroups_formed p
  have hreported := vibrationGroups_reported p
  rw [← hq] at hformed hreported
  refine ⟨congrArg Effect.due (runWork_vibrationGroups p), hformed.vib, hreported.keeps, fun h => ?quiet,
    fun c => ?latched, fun g henters hnew => ?cls, fun reporters hnodup hmem => ⟨?sequence, fun hne => ?raised⟩,
    fun hwf => ?chain, fun g => ?group⟩
  case quiet => exact hreported.quiet fun g _ => mt (hentered g).2 (h g)
  case latched =>
    simp only [hreported.latched, mem_vibGroups, true_and, hentered]
  case cls => exact hreported.cls g (mem_vibGroups g) ((hreports g).2 ⟨henters, hnew⟩)
  case sequence =>
    rw [hq]
    exact vibrationGroups_sequence p reporters hnodup fun g => (hmem g).trans (hreports g).symm
  case raised =>
    obtain ⟨g, hg⟩ := List.exists_mem_of_ne_nil reporters hne
    exact hreported.raised ⟨g, mem_vibGroups g, (hreports g).2 ((hmem g).1 hg)⟩
  case chain =>
    intro formed
    have hstep : ∀ (done : List VibGroup) (x : Part) (g : VibGroup), p.GroupsFormed done x → g ∉ done →
        formed g x (groupFormed x g) := fun done x g hx hg => by
      have hx' : x.setVib { x.vib with group := x.vib.group.set g (q.vib.group.get g) } = groupSet x g := by
        rw [hgroup, ← hx.renewed hg]
        rfl
      dsimp only [formed]
      have henters : entered g ↔ entersDanger x g = true := by rw [hentered, hx.enters hg]
      rw [hx']
      split
      next h =>
        rw [← hx.settings]
        exact groupFormed_reported x g (henters.1 h.1) h.2 (hx.canonical hwf)
      next h => exact groupFormed_of_quiet x g (mt (And.imp_left henters.2) h)
    clear_value formed
    have hlast := hstep _ _ .tyre (gearFormed_formed p) (by decide)
    rw [← vibrationGroups_eq, ← hq] at hlast
    exact ⟨pinionAFormed p, pinionBFormed p, gearFormed p, hstep [] p .pinionA (.nil p) (by decide),
      hstep _ _ .pinionB (pinionAFormed_formed p) (by decide),
      hstep _ _ .gear (pinionBFormed_formed p) (by decide), hlast⟩
  case group =>
    intro enabled has old new code frames rank
    have hrank : rank = VibState.rank := funext fun x => by cases x <;> rfl
    have hnew : new = groupRenewed p g := hgroup g
    obtain ⟨hfactor, hshown⟩ := groupRenewed_published p g
    rw [hrank, hnew]
    refine ⟨groupRenewed_disabled p g, groupRenewed_lost p g, groupRenewed_danger p g, groupRenewed_alert p g,
      groupRenewed_normal p g, hfactor, hshown, fun h => congrArg GroupWatch.hold (groupRenewed_of_same p g h),
      fun h hcode => ?keptDown, fun h hcode => ⟨fun hnone => ?begun, fun x hx => ?again⟩,
      fun hne h => ⟨fun hnone => ?none, fun x hx => ⟨fun hx' => ?ended, fun hx' => ?keptUp⟩⟩⟩
    case keptDown => exact (groupRenewed_hold_of_down p g h).trans (holdAfter_down_zero h hcode _)
    case begun => rw [groupRenewed_hold_of_down p g h, hnone, holdAfter_down_none h hcode]; rfl
    case again => rw [groupRenewed_hold_of_down p g h, hx, holdAfter_down_some h hcode]; rfl
    case none => rw [groupRenewed_hold p g hne, hnone, holdAfter_up_none h]
    case ended => rw [groupRenewed_hold p g hne, hx, holdAfter_up_some h, if_pos hx']
    case keptUp => rw [groupRenewed_hold p g hne, hx, holdAfter_up_some h, if_neg (not_le.2 hx')]

end Sys2Proof.Machine
end

section
/-! The TRIP_IN line (R161), and the close of the record being filled (R170). -/

namespace Sys2Proof.Machine

/-! ## The TRIP_IN line -/

/-- The part with the TRIP_IN line asserted, before the trip unit looks at it. -/
def tripInSet (p : Part) : Part := p.setPins { p.pins with tripIn := true }

section TripIn

variable (p : Part)

theorem tripInAsserted_eq :
    tripInAsserted p = if p.isReady then report .external (tripInSet p) else tripInSet p := rfl

theorem tripInAsserted_of_ready (hready : p.phase = .ready) :
    tripInAsserted p = report .external (tripInSet p) :=
  (tripInAsserted_eq p).trans (if_pos ((isReady_iff p).2 hready))

/-- A reset in progress latches nothing: it looks at the line when it ends (R161). -/
theorem tripInAsserted_of_starting (hphase : p.phase ≠ .ready) : tripInAsserted p = tripInSet p :=
  (tripInAsserted_eq p).trans (if_neg (mt (isReady_iff p).1 hphase))

theorem tripInAsserted_of_latched (hlatched : isLatched p.trip.latched .external = true) :
    tripInAsserted p = tripInSet p := by
  by_cases hready : p.phase = .ready
  · rw [tripInAsserted_of_ready p hready]
    exact report_of_latched _ (tripInSet p) hlatched
  · exact tripInAsserted_of_starting p hready

/-- EXTERNAL always has class INHIBIT_ALL, and the sequencer's order does not look at the line (R156, R107). -/
theorem tripInAsserted_taken (hready : p.phase = .ready) (hnew : isLatched p.trip.latched .external = false)
    (hwf : Memory.wf p.exch.mem = true) :
    TripTaken .external .inhibitAll (tripInSet p) (tripInAsserted p) ∧
      (tripInAsserted p).seq = (inhibitAllOrder p).seq := by
  have hclass : (tripInSet p).settings.classOf .external = .inhibitAll := rfl
  rw [tripInAsserted_of_ready p hready, report_of_new _ (tripInSet p) hnew, hclass]
  exact ⟨tripEvent_taken _ _ (tripInSet p) hwf, tripEvent_seq_inhibitAll _ (tripInSet p)⟩

end TripIn

/-- Between events the assertion acts on the part as it stands. -/
theorem exec_tripInAsserted (s : State) (hbetween : betweenEvents s.agenda = true) :
    exec .tripInAsserted s = .next { s with part := tripInAsserted s.part } := by
  show actOn tripInAsserted (finishEvent s) = _
  rw [finishEvent_of_between s hbetween, actOn]

/-- Settles O29: the line is set, then EXTERNAL is reported in READY. -/
theorem tripInLine : Obligations.TripInLine := by
  refine ⟨fun s hbetween hwf => ⟨tripInAsserted s.part, exec_tripInAsserted s hbetween, ?_⟩, fun _ => rfl⟩
  dsimp only
  split
  case isTrue h =>
    obtain ⟨hready, hnew⟩ := h
    exact tripInAsserted_taken s.part hready hnew hwf
  case isFalse h =>
    by_cases hready : s.part.phase = .ready
    · exact tripInAsserted_of_latched s.part (Bool.of_not_eq_false fun hnew => h ⟨hready, hnew⟩)
    · exact tripInAsserted_of_starting s.part hready

/-! ## The close of a record -/

section Close

variable (p : Part)

theorem recordClose_of_none (h : p.trip.filling = none) : recordClose p = p := by
  simp only [recordClose, h]

variable (f : Filling)

/-- The part with the state word of the slot being filled READY, and no slot being filled. -/
def slotClosed : Part :=
  (p.setMem (writeWord p.exch.mem (slotOffset f.slot) slotReady)).setTrip { p.trip with filling := none }

theorem recordClose_of_some (h : p.trip.filling = some f) :
    recordClose p = raiseSource .record (slotClosed p f) := by
  simp only [recordClose, h, slotClosed, Part.setMem_trip]

theorem slotState_slotClosed (hwf : Memory.wf p.exch.mem = true) :
    slotState (slotClosed p f) f.slot = slotReady :=
  readWord_writeWord_same _ _ _ hwf

/-- The close stores the two bytes of the state word (R167, R170). -/
theorem slotClosed_writes :
    p.Writes (fun a => a = slotOffset f.slot ∨ a = slotOffset f.slot + 1) (slotClosed p f) :=
  ⟨(stores_writeWord p.exch.mem (slotOffset f.slot) slotReady).mono fun a ha => by omega, rfl, rfl, rfl⟩

theorem slotClosed_keeps : Part.keeps [.exch, .attn, .trip] p (slotClosed p f) :=
  ((Part.keeps.refl _ p).setMem _).setTrip _

end Close

/-- Settles O52: with a slot being filled its state word and the trip unit's entry for it are closed, then RECORD
is raised. -/
theorem recordClosed : Obligations.RecordClosed := by
  intro s rest ha hwf
  refine ⟨recordClose s.part, occurWith_head _ _ s rest rfl ha, recordClose_of_none s.part, fun f hf => ?_⟩
  rw [recordClose_of_some s.part f hf]
  have hwrites := (slotClosed_writes s.part f).of_exch (r := raiseSource .record (slotClosed s.part f)) rfl rfl
  exact ⟨slotState_slotClosed s.part f hwf, rfl, hwrites.storesOnly hwf,
    raisesOnly_raiseSource .record (slotClosed s.part f), (slotClosed_keeps s.part f).raise .record⟩

end Sys2Proof.Machine
end

section
/-! The ends of a block and of a capture: CAPTURE_BLOCK_WRITE and CAPTURE_COMPLETE (R179, R181, R183, R185). -/

namespace Sys2Proof.Machine

/-! ## A block written -/

/-- An engine after the write of its open block: the block counted and its notes summed up. -/
def Engine.blockWritten (x : Engine) : Engine :=
  { x.summed with written := x.written + 1, remaining := x.remaining - 1, block := [], notes := [] }

/-- The first invalid sample ever: the one already kept, else the block's first, by its index within the
capture (R185). -/
def Engine.firstInvalidAfter (x : Engine) : Option Note :=
  match x.firstInvalid with
  | some n => some n
  | none => x.notes.head?.map (fun n => { index := 256 * x.written + n.index, mark := n.mark })

theorem Engine.summed_firstInvalid (x : Engine) : x.summed.firstInvalid = x.firstInvalidAfter := by
  rw [Engine.summed, Engine.firstInvalidAfter, Nat.mul_comm 256]
  cases x.firstInvalid with
  | some n => rfl
  | none => cases x.notes <;> rfl

theorem Engine.blockWritten_eq (x : Engine) :
    x.blockWritten = { x with
      written := x.written + 1, remaining := x.remaining - 1, block := [], notes := []
      rangeCount := x.rangeCount + x.notes.countP (fun n => n.mark == .invalidRange)
      lateCount := x.lateCount + x.notes.countP (fun n => n.mark == .invalidLate)
      firstInvalid := x.firstInvalidAfter } := by
  rw [← Engine.summed_firstInvalid, List.countP_eq_length_filter, List.countP_eq_length_filter]
  rfl

section BlockWrite

variable (e : EngineId) (p : Part)

/-- The first byte of the block that the engine writes next (R179). -/
def blockBase : Nat := (p.cap.get e).base + 512 * (p.cap.get e).written

/-- The part after the block write, of which the completion may be due. -/
def blockStored : Part :=
  (p.setMem (writeWords p.exch.mem (blockBase e p) ((p.cap.get e).block.map wordOf))).setCap
    (p.cap.set e (p.cap.get e).blockWritten)

theorem captureBlockWrite_eq :
    captureBlockWrite e p =
      { part := blockStored e p
        due := if (p.cap.get e).remaining ≤ 1 then [.captureComplete e] else [] } := by
  rw [blockStored, blockBase, Nat.mul_comm 512]
  simp only [← Nat.sub_eq_zero_iff_le]
  rfl

theorem readWords_blockStored (hwf : Memory.wf p.exch.mem = true) :
    readWords (blockStored e p).exch.mem (blockBase e p) (p.cap.get e).block.length =
      (p.cap.get e).block.map wordOf := by
  have h := readWords_writeWords_same p.exch.mem (blockBase e p) ((p.cap.get e).block.map wordOf) hwf
  rwa [List.length_map] at h

theorem blockStored_writes :
    p.Writes (fun a => blockBase e p ≤ a ∧ a < blockBase e p + 2 * (p.cap.get e).block.length)
      (blockStored e p) := by
  have h := stores_writeWords p.exch.mem (blockBase e p) ((p.cap.get e).block.map wordOf)
  rw [List.length_map] at h
  exact ⟨h, rfl, rfl, rfl⟩

theorem blockStored_keeps : Part.keeps [.exch, .cap] p (blockStored e p) :=
  ((Part.keeps.refl _ p).setMem _).setCap _

end BlockWrite

/-- Settles O54: the block stands in the region, and the engine has counted it. -/
theorem captureBlockWritten : Obligations.CaptureBlockWritten := by
  intro e s rest ha hwf old base
  refine ⟨blockStored e s.part, ?_, readWords_blockStored e s.part hwf,
    (blockStored_writes e s.part).storesOnly hwf,
    congrArg (s.part.cap.set e) (Engine.blockWritten_eq old), blockStored_keeps e s.part⟩
  have h := occurWith_head (.captureBlockWrite e) (captureBlockWrite e) s rest rfl ha
  rw [captureBlockWrite_eq] at h
  exact h

/-! ## A capture complete -/

/-- An engine that took in its last block (R183). -/
def Engine.completed (x : Engine) : Engine := { x with state := .idle, remaining := 0 }

/-- An engine as the completion of the other one leaves it: RUNNING if it waited (R181). -/
def Engine.followed (x : Engine) : Engine := if x.waits then { x with state := .running } else x

theorem Engine.followed_eq (x : Engine) :
    x.followed = if x.state = .armed ∧ x.start = .afterOther then { x with state := .running } else x := by
  simp only [Engine.followed, Engine.waits_iff]

/-- The eight values: the counts, the first invalid sample, and the time of the first sample (R185). -/
theorem captureResults_eq (x : Engine) :
    captureResults x = [wordOfNat x.written, wordOfNat x.rangeCount, wordOfNat x.lateCount] ++
      (match x.firstInvalid with
        | some n => [wordOfNat n.index, wordOfNat n.mark.code]
        | none => [0xFFFF#16, 0#16]) ++
      (match x.firstTime with
        | some t => wordsOf32 t.1 ++ [wordOfNat t.2]
        | none => [0#16, 0#16, 0#16]) := by
  rw [captureResults]
  cases x.firstTime <;> rfl

theorem PerEngine.set_get_self {α : Type} (x : PerEngine α) (e : EngineId) : x.set e (x.get e) = x := by
  cases e <;> rfl

section Complete

variable (e : EngineId) (p : Part)

/-- The engine idle and its cell finished: the first two parts of R183. -/
def captureEnded : Part :=
  finishCapture e .ok (captureResults (p.cap.get e)) (p.setCap (p.cap.set e (p.cap.get e).completed))

/-- CAPTURE raised, and both engines as the completion leaves them. -/
def captureDone : Part :=
  (raiseSource .capture (captureEnded e p)).setCap
    ((p.cap.set e (p.cap.get e).completed).set e.other (p.cap.get e.other).followed)

theorem captureEnded_cap : (captureEnded e p).cap = p.cap.set e (p.cap.get e).completed :=
  finishCapture_cap e _ _ _

theorem captureEnded_other : (captureEnded e p).cap.get e.other = p.cap.get e.other := by
  rw [captureEnded_cap, PerEngine.get_set_other]

theorem captureComplete_eq : captureComplete e p = captureDone e p := by
  have hdef : captureComplete e p =
      if ((captureEnded e p).cap.get e.other).waits then
        (raiseSource .capture (captureEnded e p)).setCap ((captureEnded e p).cap.set e.other
          { (captureEnded e p).cap.get e.other with state := .running })
      else raiseSource .capture (captureEnded e p) := rfl
  rw [hdef, captureDone, Engine.followed, ← captureEnded_cap, ← captureEnded_other e p]
  split
  · rfl
  · rw [PerEngine.set_get_self]
    rfl

theorem captureDone_get : (captureDone e p).cap.get e = (p.cap.get e).completed := by
  cases e <;> rfl

theorem captureDone_get_other : (captureDone e p).cap.get e.other = (p.cap.get e.other).followed :=
  PerEngine.get_set_same _ _ _

theorem captureDone_raises : Part.raisesOnly [.capture] (captureEnded e p) (captureDone e p) :=
  raisesOnly_raiseSource .capture (captureEnded e p)

theorem captureDone_orders :
    (captureDone e p).orders = { p.orders with capture := p.orders.capture.set e none } :=
  finishCapture_orders e _ _ _

/-- With no cell in flight the completion raises CAPTURE alone. -/
theorem captureDone_of_none (hnone : p.orders.capture.get e = none) :
    Part.raisesOnly [.capture] p (captureDone e p) ∧ Part.keeps [.attn, .cap] p (captureDone e p) := by
  have hended : captureEnded e p = p.setCap (p.cap.set e (p.cap.get e).completed) := by
    simp only [captureEnded, finishCapture, Part.setCap_orders, hnone]
  have hraises := captureDone_raises e p
  rw [captureDone, hended] at hraises ⊢
  exact ⟨hraises, (((Part.keeps.refl _ p).setCap _).raise .capture).setCap _⟩

theorem captureDone_keeps : Part.keeps [.exch, .attn, .orders, .cap] p (captureDone e p) :=
  ((((Part.keeps.refl _ p).setCap _).endCapture e _ _).raise .capture).setCap _

variable (k : CellId) (hk : p.orders.capture.get e = some k)

include hk

theorem captureEnded_of_some :
    captureEnded e p = finishCell k .ok (captureResults (p.cap.get e))
      ((p.setCap (p.cap.set e (p.cap.get e).completed)).setOrders
        { p.orders with capture := p.orders.capture.set e none }) := by
  simp only [captureEnded, finishCapture, Part.setCap_orders, hk]

/-- With a cell in flight, ORDER comes before CAPTURE. -/
theorem captureDone_raises_of_some : Part.raisesOnly [.order, .capture] p (captureDone e p) := by
  have horder : Part.raisesOnly [.order] p (captureEnded e p) := by
    rw [captureEnded_of_some e p k hk]
    exact (Part.RaisesOrderAtMost.of_attn rfl).raisesOnly_finish k .ok _
  exact Part.raisesOnly_append horder (captureDone_raises e p)

theorem captureDone_writes : p.Writes (cellAnswerByte k) (captureDone e p) := by
  have hended : p.Writes (cellAnswerByte k) (captureEnded e p) := by
    rw [captureEnded_of_some e p k hk]
    exact (((Part.Writes.refl _ p).setCap _).setOrders _).finish k .ok _ (fun _ => cellResultByte.answer)
  exact hended.of_exch rfl rfl

theorem captureDone_finished (hwf : Memory.wf p.exch.mem = true) :
    CellFinished k .ok (captureResults (p.cap.get e)) p (captureDone e p) := by
  have hended : CellFinished k .ok (captureResults (p.cap.get e)) p (captureEnded e p) :=
    ((Part.Writes.refl (fun _ => True) p).setCap _).endCapture_finished hwf e k hk
  exact hended.congr fun _ _ => rfl

end Complete

/-- Settles O55: the engine, its cell, CAPTURE, then the engine that waited (R183). -/
theorem captureCompleted : Obligations.CaptureCompleted := by
  intro e s rest ha hwf old other values
  have hvalues : captureResults old = values := captureResults_eq old
  rw [← hvalues]
  have hexec : exec (.captureComplete e) s =
      .next (drain { s with agenda := rest, part := captureComplete e s.part }) :=
    occurWith_head _ _ s rest rfl ha
  rw [captureComplete_eq] at hexec
  refine ⟨captureDone e s.part, hexec, captureDone_get e s.part, ?_, captureDone_of_none e s.part, fun k hk => ?_⟩
  · rw [captureDone_get_other, Engine.followed_eq]
  · exact ⟨captureDone_finished e s.part k hk hwf, captureDone_orders e s.part,
      captureDone_raises_of_some e s.part k hk, (captureDone_writes e s.part k hk).storesOnly hwf,
      captureDone_keeps e s.part⟩

end Sys2Proof.Machine
end

section
/-! The state's queue and the words of the arithmetic section: what a step takes up, that every command answers a
next state with the queue as it was, and what saturation and the rounded shift give. -/

namespace Sys2Proof.Machine

/-! ## A step by the front of the queue -/

theorem step_of_pending_cons {c : Instr} {rest : List Instr} {s : State} (h : s.pending = c :: rest) :
    step s = exec c { s with pending := rest } := by
  simp only [step, h]

theorem step_of_pending_nil {s : State} (h : s.pending = []) : step s = idleStep s := by
  simp only [step, h]

theorem idleStep_of_agenda_nil {s : State} (h : s.agenda = []) : idleStep s = .next s := by
  simp only [idleStep, h]

theorem idleStep_of_agenda_cons {w : Work} {rest : List Work} {s : State} (h : s.agenda = w :: rest) :
    idleStep s = .next (drain (runFirst w rest s)) := by
  simp only [idleStep, h]

/-- Settles O15: the queue has a command at its front. -/
theorem queueFront : Obligations.QueueFront :=
  fun _ _ _ => step_of_pending_cons rfl

/-- Settles O16 (`idleStep` is the model's own name): the idle step by the agenda, and draining by the laws of
a run of work (logs 1 and 2). -/
theorem idleStep_holds : Obligations.IdleStep := by
  intro s hpending
  rw [step_of_pending_nil hpending]
  exact ⟨idleStep_of_agenda_nil, fun _ _ => idleStep_of_agenda_cons, beforeRow_drain s, drain_pending s,
    drain_of_beforeRow s⟩

/-! ## What a command answers -/

/-- An answer to a command in `s`: a next state, with the queue of `s`. -/
def AnswersNext (s : State) (o : Host.Outcome State Fault Refusal) : Prop :=
  ∃ t, o = .next t ∧ t.pending = s.pending

theorem answersNext_next {s t : State} (h : t.pending = s.pending) : AnswersNext s (.next t) :=
  ⟨t, rfl, h⟩

theorem actOn_answersNext (f : Part → Part) {s t : State} (h : t.pending = s.pending) :
    AnswersNext s (actOn f t) :=
  answersNext_next h

theorem actWith_answersNext (f : Part → Effect) {s t : State} (h : t.pending = s.pending) :
    AnswersNext s (actWith f t) :=
  answersNext_next h

/-- A row answers a next state whether it is due or not. -/
theorem occurWith_answersNext (w : Work) (f : Part → Effect) (s : State) :
    AnswersNext s (occurWith w f s) := by
  unfold occurWith
  dsimp only
  split
  · exact answersNext_next ((drain_pending _).trans (reach_pending w s))
  · exact answersNext_next (reach_pending w s)

theorem occur_answersNext (w : Work) (s : State) : AnswersNext s (occur w s) :=
  occurWith_answersNext w _ s

theorem execPartResetRequest_answersNext (value : Word) (s : State) :
    AnswersNext s (execPartResetRequest value s) := by
  unfold execPartResetRequest
  split <;> exact answersNext_next rfl

theorem execControlPeriodExpiry_answersNext (s : State) : AnswersNext s (execControlPeriodExpiry s) := by
  unfold execControlPeriodExpiry
  split
  · exact actWith_answersNext _ ((settle_pending _).trans (settle_pending s))
  · exact answersNext_next rfl

/-- A command acts at once, completes the work before it and then acts, or is a row that comes about. -/
theorem exec_answersNext (c : Instr) (s : State) : AnswersNext s (exec c s) := by
  cases c with
  | powerOnReset => exact answersNext_next rfl
  | partResetRequest value => exact execPartResetRequest_answersNext value s
  | controlPeriodExpiry => exact execControlPeriodExpiry_answersNext s
  | resetEnd | attentionAcknowledge | routingWrite | registerWriteIgnored | hostWrite | hostRead
  | lineBreakReleased | replyReceived | tripInReleased => exact actOn_answersNext _ rfl
  | lineBreakAsserted | tripInAsserted => exact actOn_answersNext _ (finishEvent_pending s)
  | encoderTransition => exact actWith_answersNext _ (finishEvent_pending s)
  | conversionSlotEnd => exact actWith_answersNext _ (finishExpiry_pending s)
  | supervisionFrame | scanComplete => exact occurWith_answersNext _ _ s
  | _ => exact occur_answersNext _ s

/-- Settles O17, by the way in which each command acts. -/
theorem execAnswersNext : Obligations.ExecAnswersNext :=
  exec_answersNext

/-! ## The rounded shift and saturation -/

/-- The rounded shift is the whole number of steps of 2^n in x with half a step added (spec 00). -/
theorem roundedShift_bounds (n : Nat) (x : Int) :
    roundedShift n x * 2 ^ n ≤ x + 2 ^ (n - 1) ∧ x + 2 ^ (n - 1) < (roundedShift n x + 1) * 2 ^ n :=
  have hstep : (0 : Int) < 2 ^ n := by positivity
  ⟨Int.ediv_mul_le _ hstep.ne', Int.lt_ediv_add_one_mul_self _ hstep⟩

theorem clampTo_of_between {lo hi x : Int} (hlo : lo ≤ x) (hhi : x ≤ hi) : clampTo lo hi x = x := by
  rw [clampTo, min_eq_right hhi, max_eq_right hlo]

theorem clampTo_of_le {lo hi x : Int} (h : x ≤ lo) : clampTo lo hi x = lo :=
  max_eq_left ((min_le_right hi x).trans h)

theorem clampTo_of_ge {lo hi x : Int} (hlo : lo ≤ hi) (h : hi ≤ x) : clampTo lo hi x = hi := by
  rw [clampTo, min_eq_left h, max_eq_right hlo]

/-- Settles O56: the floor root, the division by a step, and saturation inside its ends, below and above. -/
theorem floorRootAndShift : Obligations.FloorRootAndShift :=
  ⟨isqrt_bounds, fun n x _ => roundedShift_bounds n x, fun _ =>
    ⟨clampTo_of_between, fun hbelow => clampTo_of_le hbelow.le,
      fun habove => clampTo_of_ge (by decide) habove.le⟩⟩

end Sys2Proof.Machine
end
